-- ==== Sys2Proof/Word.lean ====
section
/-! DEFINITION. Words, bytes and binary32 words (00_scope.md R11, 20_memory.md R101, R105). -/

namespace Sys2Proof

/-- The data unit of the host bus: a 32-bit word (R101, R110). -/
abbrev Word := BitVec 32

/-- One byte of memory (R104). -/
abbrev Byte := BitVec 8

/-- A 32-bit word read as an IEEE 754 binary32 value (R14, R105). -/
abbrev F32 := BitVec 32

/-- A voice slot number, 0..15; the slot is present when it is below NUM_VOICES (R66, R432). -/
abbrev VoiceId := Fin 16

end Sys2Proof
end

