-- ==== Sys2Proof/Config.lean ====
section
/-! DEFINITION. What one block's construction fixes (00_scope.md R8, R9), and the free values of the model: opaque
constants with no body, so that nothing can be proved of what they are. -/

namespace Sys2Proof

/-- The implementation parameters of R8, fixed for the life of the block (R9).  POW is `Config.freePow`; DC_COEF
is the constant of R373.  Log entry 1. -/
structure Config where
  /-- SAMPLE_RATE, in Hz. -/
  sampleRate : Nat
  /-- BLOCK_FRAMES, the size of each voice's output buffer in frames. -/
  blockFrames : Nat
  /-- NUM_VOICES. -/
  numVoices : Nat
  /-- MIN_FREQ, from which VINIT precomputes V.maxWlen. -/
  minFreq : F32
  /-- MIN_WLEN, the lower end of the valid wavelength range. -/
  minWlen : Nat
  /-- LFSR_SEED. -/
  lfsrSeed : BitVec 16
  /-- NOISE_FREQS[0..15], index 0 = slowest. -/
  noiseFreqs : Vector F32 16
  /-- TRI_TABLE[0..31]. -/
  triTable : Vector Nat 32
  /-- MULT[-24..24], entry d at position d + 24. -/
  mult : Vector F32 49
  /-- K, the distortion exponent. -/
  k : F32
  /-- DITHER_AMP. -/
  ditherAmp : F32
  /-- LPF_BETA. -/
  lpfBeta : F32
  /-- W12, the mix weight of pair 1+2. -/
  w12 : F32
  /-- W34, the mix weight of pair 3+4. -/
  w34 : F32
  /-- W_ALL, the overall mix weight. -/
  wAll : F32
deriving DecidableEq, Repr

/-- Free value (log entry 7): what the configuration's POW gives for `a` and `k` where R16 fixes no value.  It is
read only through `powConfig`, which keeps the properties of R16. -/
opaque Config.freePow (a k : F32) : F32

/-- Free value (log entry 6): the `j`-th sample the dither source would deliver to voice `v`, before it is brought
into the range of R361. -/
opaque Config.freeDither (v j : Nat) : F32

/-- Free value (log entry 8): the bits of the NaN that operation number `op` gives on `x` and `y`. -/
opaque Config.freeNaN (op : Nat) (x y : F32) : F32

/-- Free value (log entry 5): field number `field` of the hidden voice state that the VFREE numbered `serial` leaves
unspecified (10_state.md R69, 41_voice_commands.md R222). -/
opaque Config.freeHidden (serial field : Nat) : Nat

end Sys2Proof
end

