-- ==== Sys2Proof/Machine/ResetConfig.lean ====
section
/-! DEFINITION. The configuration `State.reset` is built with: the spec's test configuration TC (95_test_vectors.md
section 1, 92_eei_decisions.md section 2).  DESIGN CHOICE, unsafe: the spec leaves these parameters OPEN; log entry 1. -/

namespace Sys2Proof

/-- TC's preset noise rates: 100, 200, ..., 1000, 2000, ..., 5000, 10000, 20000 Hz. -/
def Config.tcNoiseFreqs : Vector F32 16 :=
  #v[0x42C80000#32, 0x43480000#32, 0x43960000#32, 0x43C80000#32, 0x43FA0000#32, 0x44160000#32, 0x442F0000#32, 0x44480000#32,
    0x44610000#32, 0x447A0000#32, 0x44FA0000#32, 0x453B8000#32, 0x457A0000#32, 0x459C4000#32, 0x461C4000#32, 0x469C4000#32]

/-- The default TRI_TABLE of 43_triangle.md R314. -/
def Config.defaultTriTable : Vector Nat 32 :=
  #v[15, 14, 13, 12, 11, 10, 9, 8, 7, 6, 5, 4, 3, 2, 1, 0,
    0, 1, 2, 3, 4, 5, 6, 7, 8, 9, 10, 11, 12, 13, 14, 15]

/-- TC's detune table: 2^(d/12) rounded to binary32, d = -24..24. -/
def Config.tcMult : Vector F32 49 :=
  #v[0x3E800000#32, 0x3E879C7D#32, 0x3E8FACD6#32, 0x3E9837F0#32, 0x3EA14518#32, 0x3EAADC08#32, 0x3EB504F3#32,
    0x3EBFC887#32, 0x3ECB2FF5#32, 0x3ED744FD#32, 0x3EE411F0#32, 0x3EF1A1BF#32, 0x3F000000#32, 0x3F079C7D#32,
    0x3F0FACD6#32, 0x3F1837F0#32, 0x3F214518#32, 0x3F2ADC08#32, 0x3F3504F3#32, 0x3F3FC887#32, 0x3F4B2FF5#32,
    0x3F5744FD#32, 0x3F6411F0#32, 0x3F71A1BF#32, 0x3F800000#32, 0x3F879C7D#32, 0x3F8FACD6#32, 0x3F9837F0#32,
    0x3FA14518#32, 0x3FAADC08#32, 0x3FB504F3#32, 0x3FBFC887#32, 0x3FCB2FF5#32, 0x3FD744FD#32, 0x3FE411F0#32,
    0x3FF1A1BF#32, 0x40000000#32, 0x40079C7D#32, 0x400FACD6#32, 0x401837F0#32, 0x40214518#32, 0x402ADC08#32,
    0x403504F3#32, 0x403FC887#32, 0x404B2FF5#32, 0x405744FD#32, 0x406411F0#32, 0x4071A1BF#32, 0x40800000#32]

/-- The test configuration TC. -/
def Config.tc : Config where
  sampleRate := 44100
  blockFrames := 256
  numVoices := 2
  minFreq := 0x41200000#32
  minWlen := 4
  lfsrSeed := 1#16
  noiseFreqs := Config.tcNoiseFreqs
  triTable := Config.defaultTriTable
  mult := Config.tcMult
  k := 0x3F800000#32
  ditherAmp := 0x3C800000#32
  lpfBeta := 0x3F000000#32
  w12 := 0x3F000000#32
  w34 := 0x3E800000#32
  wAll := 0x3F800000#32

end Sys2Proof
end

