-- ==== Sys2Proof/Syntax.lean ====
section
/-! DEFINITION. Host transactions and the operations they select: one constructor of `Instr` for each row of
spec/opcode_table.json (30_encoding.md R140, R146). -/

namespace Sys2Proof

/-- A host transaction (R140): BUS-R carries one address word, BUS-W one address word and one data word. -/
inductive Txn where
  | read (addr : Word)
  | write (addr data : Word)
deriving DecidableEq, Repr

/-- The channel of an output word, `addr[2]` (R106, R145). -/
inductive Side where
  | left
  | right
deriving DecidableEq, Repr

/-- The 33 registers of the Parameter Set, in the order of 10_state.md R43. -/
inductive Param where
  | ch1En
  | ch1Detune
  | ch1Vol
  | ch1EnvEn
  | ch1EnvLoop
  | ch1EnvLen
  | ch1Duty
  | ch1SweepEn
  | ch1SweepAmt
  | ch1SweepRate
  | ch2En
  | ch2Detune
  | ch2Vol
  | ch2EnvEn
  | ch2EnvLoop
  | ch2EnvLen
  | ch2Duty
  | ch2SweepEn
  | ch2SweepAmt
  | ch2SweepRate
  | ch3En
  | ch3Detune
  | ch3Vol
  | ch4En
  | ch4Vol
  | ch4EnvEn
  | ch4EnvLoop
  | ch4EnvLen
  | ch4NoiseMode
  | ch4NoiseFreqMode
  | ch4NoiseFreq
  | masterVol
  | vibrato
deriving DecidableEq, Repr

/-- The operations of R146.  `WR.NAME` and `RD.NAME` have a constructor for each register NAME. -/
inductive Instr where
  | wrCh1En (d : Word)
  | wrCh1Detune (d : Word)
  | wrCh1Vol (d : Word)
  | wrCh1EnvEn (d : Word)
  | wrCh1EnvLoop (d : Word)
  | wrCh1EnvLen (d : Word)
  | wrCh1Duty (d : Word)
  | wrCh1SweepEn (d : Word)
  | wrCh1SweepAmt (d : Word)
  | wrCh1SweepRate (d : Word)
  | wrCh2En (d : Word)
  | wrCh2Detune (d : Word)
  | wrCh2Vol (d : Word)
  | wrCh2EnvEn (d : Word)
  | wrCh2EnvLoop (d : Word)
  | wrCh2EnvLen (d : Word)
  | wrCh2Duty (d : Word)
  | wrCh2SweepEn (d : Word)
  | wrCh2SweepAmt (d : Word)
  | wrCh2SweepRate (d : Word)
  | wrCh3En (d : Word)
  | wrCh3Detune (d : Word)
  | wrCh3Vol (d : Word)
  | wrCh4En (d : Word)
  | wrCh4Vol (d : Word)
  | wrCh4EnvEn (d : Word)
  | wrCh4EnvLoop (d : Word)
  | wrCh4EnvLen (d : Word)
  | wrCh4NoiseMode (d : Word)
  | wrCh4NoiseFreqMode (d : Word)
  | wrCh4NoiseFreq (d : Word)
  | wrMasterVol (d : Word)
  | wrVibrato (d : Word)
  | rdCh1En
  | rdCh1Detune
  | rdCh1Vol
  | rdCh1EnvEn
  | rdCh1EnvLoop
  | rdCh1EnvLen
  | rdCh1Duty
  | rdCh1SweepEn
  | rdCh1SweepAmt
  | rdCh1SweepRate
  | rdCh2En
  | rdCh2Detune
  | rdCh2Vol
  | rdCh2EnvEn
  | rdCh2EnvLoop
  | rdCh2EnvLen
  | rdCh2Duty
  | rdCh2SweepEn
  | rdCh2SweepAmt
  | rdCh2SweepRate
  | rdCh3En
  | rdCh3Detune
  | rdCh3Vol
  | rdCh4En
  | rdCh4Vol
  | rdCh4EnvEn
  | rdCh4EnvLoop
  | rdCh4EnvLen
  | rdCh4NoiseMode
  | rdCh4NoiseFreqMode
  | rdCh4NoiseFreq
  | rdMasterVol
  | rdVibrato
  /-- BUS-W to the reserved location `a` (R183). -/
  | wrRsv (a : Word) (d : Word)
  /-- BUS-R of the reserved location `a` (R183). -/
  | rdRsv (a : Word)
  /-- BUS-W to GSTATUS (R185). -/
  | wrGstatus (d : Word)
  /-- BUS-R of GSTATUS (R186). -/
  | rdGstatus
  /-- BUS-W to GINFO (R187). -/
  | wrGinfo (d : Word)
  /-- BUS-R of GINFO (R187). -/
  | rdGinfo
  /-- Command word 0x01000000 written to CMD(v) (R220). -/
  | vinit (v : VoiceId)
  /-- Command word 0x02000000 | n written to CMD(v) (R224). -/
  | vrender (v : VoiceId) (n : BitVec 16)
  /-- Command word 0x03000000 written to CMD(v) (R222). -/
  | vfree (v : VoiceId)
  /-- Any other command word `w` written to CMD(v) (R402). -/
  | cmdIllegal (v : VoiceId) (w : Word)
  /-- BUS-R of CMD(v) (R189). -/
  | rdCmd (v : VoiceId)
  /-- BUS-R of STATUS(v) (R190). -/
  | rdStatus (v : VoiceId)
  /-- BUS-W to STATUS(v) (R191). -/
  | wrStatus (v : VoiceId) (d : Word)
  /-- BUS-W to FREQ(v) (R192). -/
  | wrFreq (v : VoiceId) (d : Word)
  /-- BUS-R of FREQ(v) (R193). -/
  | rdFreq (v : VoiceId)
  /-- BUS-R of the sample word of frame `i`, channel `c`, of voice `v` (R195). -/
  | rdOut (v : VoiceId) (i : BitVec 13) (c : Side)
  /-- A transaction the block does not accept (R180). -/
  | busErr (t : Txn)
deriving DecidableEq, Repr

end Sys2Proof
end

