-- ==== Sys2Proof/WellFormed.lean ====
section
/-! DEFINITION. When an operation is one the block can be given: its operands lie where its row of 30_encoding.md R145
and R146 lets them lie.  Written from the address map (20_memory.md R102), the reserved list (40_host_bus.md R183) and
the match and mask forms (30_encoding.md R143), not from the decoder. -/

namespace Sys2Proof

/-- Voice `v` has a register block and a buffer (R66, R106). -/
def VoiceId.present (c : Config) (v : VoiceId) : Bool := decide (v.val < c.numVoices)

/-- `n` lies in one of the address ranges of R183, or is the reserved word of a present voice block. -/
def reservedAddr (c : Config) (n : Nat) : Bool :=
  n % 4 == 0 &&
    ((0x28 ≤ n && n ≤ 0x3C) || (0x68 ≤ n && n ≤ 0x7C) || (0x8C ≤ n && n ≤ 0xBC) || (0xE8 ≤ n && n ≤ 0xEC) ||
      (0xF8 ≤ n && n ≤ 0xFC) ||
      (0x100 ≤ n && n < 0x200 && n % 16 == 12 && decide ((n - 0x100) / 16 < c.numVoices)))

/-- `n` lies in the output buffer of a present voice (R102). -/
def bufferAddr (c : Config) (n : Nat) : Bool :=
  decide (0x10000 ≤ n) && decide (n / 0x10000 ≤ c.numVoices) && decide (n % 0x10000 < 8 * c.blockFrames)

/-- The register part of the map of R102: the Parameter Set, the global registers and the present voice blocks. -/
def registerAddr (c : Config) (n : Nat) : Bool :=
  decide (n < 0x100) || (decide (0x100 ≤ n) && decide (n < 0x200) && decide ((n - 0x100) / 16 < c.numVoices))

/-- A transaction R148 and R180 call a bus error: misaligned, outside the map, or a write to an output buffer. -/
def Txn.isBusError (c : Config) : Txn → Bool
  | .read a => a.toNat % 4 != 0 || !(registerAddr c a.toNat || bufferAddr c a.toNat)
  | .write a _ => a.toNat % 4 != 0 || !registerAddr c a.toNat

/-- A command word that matches none of the three forms of R143. -/
def illegalCommand (w : Word) : Bool :=
  w != 0x01000000#32 && (w &&& 0xFFFF0000#32) != 0x02000000#32 && w != 0x03000000#32

/-- Well-formed operations of a block with configuration `c`. -/
def Instr.wf (c : Config) : Instr → Bool
  | .wrCh1En _ => true
  | .wrCh1Detune _ => true
  | .wrCh1Vol _ => true
  | .wrCh1EnvEn _ => true
  | .wrCh1EnvLoop _ => true
  | .wrCh1EnvLen _ => true
  | .wrCh1Duty _ => true
  | .wrCh1SweepEn _ => true
  | .wrCh1SweepAmt _ => true
  | .wrCh1SweepRate _ => true
  | .wrCh2En _ => true
  | .wrCh2Detune _ => true
  | .wrCh2Vol _ => true
  | .wrCh2EnvEn _ => true
  | .wrCh2EnvLoop _ => true
  | .wrCh2EnvLen _ => true
  | .wrCh2Duty _ => true
  | .wrCh2SweepEn _ => true
  | .wrCh2SweepAmt _ => true
  | .wrCh2SweepRate _ => true
  | .wrCh3En _ => true
  | .wrCh3Detune _ => true
  | .wrCh3Vol _ => true
  | .wrCh4En _ => true
  | .wrCh4Vol _ => true
  | .wrCh4EnvEn _ => true
  | .wrCh4EnvLoop _ => true
  | .wrCh4EnvLen _ => true
  | .wrCh4NoiseMode _ => true
  | .wrCh4NoiseFreqMode _ => true
  | .wrCh4NoiseFreq _ => true
  | .wrMasterVol _ => true
  | .wrVibrato _ => true
  | .rdCh1En => true
  | .rdCh1Detune => true
  | .rdCh1Vol => true
  | .rdCh1EnvEn => true
  | .rdCh1EnvLoop => true
  | .rdCh1EnvLen => true
  | .rdCh1Duty => true
  | .rdCh1SweepEn => true
  | .rdCh1SweepAmt => true
  | .rdCh1SweepRate => true
  | .rdCh2En => true
  | .rdCh2Detune => true
  | .rdCh2Vol => true
  | .rdCh2EnvEn => true
  | .rdCh2EnvLoop => true
  | .rdCh2EnvLen => true
  | .rdCh2Duty => true
  | .rdCh2SweepEn => true
  | .rdCh2SweepAmt => true
  | .rdCh2SweepRate => true
  | .rdCh3En => true
  | .rdCh3Detune => true
  | .rdCh3Vol => true
  | .rdCh4En => true
  | .rdCh4Vol => true
  | .rdCh4EnvEn => true
  | .rdCh4EnvLoop => true
  | .rdCh4EnvLen => true
  | .rdCh4NoiseMode => true
  | .rdCh4NoiseFreqMode => true
  | .rdCh4NoiseFreq => true
  | .rdMasterVol => true
  | .rdVibrato => true
  | .wrRsv a _ => reservedAddr c a.toNat
  | .rdRsv a => reservedAddr c a.toNat
  | .wrGstatus _ => true
  | .rdGstatus => true
  | .wrGinfo _ => true
  | .rdGinfo => true
  | .vinit v => v.present c
  | .vrender v _ => v.present c
  | .vfree v => v.present c
  | .cmdIllegal v w => v.present c && illegalCommand w
  | .rdCmd v => v.present c
  | .rdStatus v => v.present c
  | .wrStatus v _ => v.present c
  | .wrFreq v _ => v.present c
  | .rdFreq v => v.present c
  | .rdOut v i _ => v.present c && decide (i.toNat < c.blockFrames)
  | .busErr t => t.isBusError c

end Sys2Proof
end

