-- ==== Sys2Proof/Decode.lean ====
section
/-! DEFINITION. The decoders of 30_encoding.md (R144, R145, R146) and, after them, the encoder written from the same
tables. -/

namespace Sys2Proof

/-- The direction of a transaction (R140). -/
inductive Dir where
  | r
  | w
deriving DecidableEq, Repr

/-- The address word of a transaction. -/
def Txn.addr : Txn → Word
  | .read a => a
  | .write a _ => a

/-- The direction of a transaction. -/
def Txn.dir : Txn → Dir
  | .read _ => .r
  | .write _ _ => .w

/-- The words of a transaction, first word first (R140). -/
def Txn.words : Txn → List Word
  | .read a => [a]
  | .write a d => [a, d]

/-- Why a list of words is no transaction: R140 gives the two formats a fixed length. -/
inductive FrameError where
  /-- No address word. -/
  | empty
  /-- More than an address word and a data word. -/
  | tooLong
deriving DecidableEq, Repr

/-- The transaction whose words are `ws`, total on every list of words. -/
def Txn.ofWords (ws : List Word) : Except FrameError Txn :=
  match ws with
  | [] => .error .empty
  | [a] => .ok (.read a)
  | [a, d] => .ok (.write a d)
  | _ :: _ :: _ :: _ => .error .tooLong

/-! ## The Parameter Set's offsets (10_state.md R43) -/

/-- The offset of a register. -/
def Param.offset : Param → Nat
  | .ch1En => 0x000
  | .ch1Detune => 0x004
  | .ch1Vol => 0x008
  | .ch1EnvEn => 0x00C
  | .ch1EnvLoop => 0x010
  | .ch1EnvLen => 0x014
  | .ch1Duty => 0x018
  | .ch1SweepEn => 0x01C
  | .ch1SweepAmt => 0x020
  | .ch1SweepRate => 0x024
  | .ch2En => 0x040
  | .ch2Detune => 0x044
  | .ch2Vol => 0x048
  | .ch2EnvEn => 0x04C
  | .ch2EnvLoop => 0x050
  | .ch2EnvLen => 0x054
  | .ch2Duty => 0x058
  | .ch2SweepEn => 0x05C
  | .ch2SweepAmt => 0x060
  | .ch2SweepRate => 0x064
  | .ch3En => 0x080
  | .ch3Detune => 0x084
  | .ch3Vol => 0x088
  | .ch4En => 0x0C0
  | .ch4Vol => 0x0C4
  | .ch4EnvEn => 0x0C8
  | .ch4EnvLoop => 0x0CC
  | .ch4EnvLen => 0x0D0
  | .ch4NoiseMode => 0x0D4
  | .ch4NoiseFreqMode => 0x0D8
  | .ch4NoiseFreq => 0x0DC
  | .masterVol => 0x0E0
  | .vibrato => 0x0E4

/-- Every register, in the order of R43. -/
def Param.all : List Param :=
  [.ch1En, .ch1Detune, .ch1Vol, .ch1EnvEn, .ch1EnvLoop, .ch1EnvLen, .ch1Duty,
    .ch1SweepEn, .ch1SweepAmt, .ch1SweepRate, .ch2En, .ch2Detune, .ch2Vol, .ch2EnvEn,
    .ch2EnvLoop, .ch2EnvLen, .ch2Duty, .ch2SweepEn, .ch2SweepAmt, .ch2SweepRate, .ch3En,
    .ch3Detune, .ch3Vol, .ch4En, .ch4Vol, .ch4EnvEn, .ch4EnvLoop, .ch4EnvLen,
    .ch4NoiseMode, .ch4NoiseFreqMode, .ch4NoiseFreq, .masterVol, .vibrato]

/-- The register at offset `n`, if R43 lists one there. -/
def Param.ofOffset? (n : Nat) : Option Param := Param.all.find? fun p => p.offset == n

/-! ## The bus decoder (R145) -/

/-- What a transaction addresses. -/
inductive Target where
  | buserr
  | param (p : Param)
  | razwi
  | gstatus
  | ginfo
  | cmd (v : VoiceId)
  | status (v : VoiceId)
  | freq (v : VoiceId)
  | out (v : VoiceId) (i : BitVec 13) (c : Side)
deriving DecidableEq, Repr

/-- The register a voice block holds at offset `o` (R66). -/
def voiceTarget (v : VoiceId) (o : Nat) : Target :=
  if o = 0x0 then .cmd v else if o = 0x4 then .status v else if o = 0x8 then .freq v else .razwi

/-- `addr[2]` as a channel. -/
def Side.ofBit (b : Bool) : Side := if b then .right else .left

/-- The bus decoder, total on every direction and address. -/
def decodeBus (c : Config) (dir : Dir) (a : Word) : Target :=
  let n := a.toNat
  if n % 4 ≠ 0 then .buserr
  else if n < 0xF0 then
    match Param.ofOffset? n with
    | some p => .param p
    | none => .razwi
  else if n = 0xF0 then .gstatus
  else if n = 0xF4 then .ginfo
  else if n < 0x100 then .razwi
  else if n < 0x200 then
    let v : VoiceId := (a.extractLsb' 4 4).toFin
    if c.numVoices ≤ v.val then .buserr else voiceTarget v (a.extractLsb' 0 4).toNat
  else
    let hi := (a.extractLsb' 16 16).toNat
    if 1 ≤ hi ∧ hi ≤ c.numVoices ∧ (a.extractLsb' 0 16).toNat < 8 * c.blockFrames then
      match dir with
      | .w => .buserr
      | .r => .out (Fin.ofNat 16 (hi - 1)) (a.extractLsb' 3 13) (Side.ofBit (a.getLsbD 2))
    else .buserr

/-! ## The command decoder (R144) -/

/-- The four commands. -/
inductive Cmd where
  | vinit
  | vrender (n : BitVec 16)
  | vfree
  | illegal
deriving DecidableEq, Repr

/-- The command decoder, total on every 32-bit word; OP = w[31:24], RSV = w[23:16], COUNT = w[15:0] (R141). -/
def decodeCmd (w : Word) : Cmd :=
  let op := (w.extractLsb' 24 8).toNat
  let rsv := (w.extractLsb' 16 8).toNat
  let cnt := w.extractLsb' 0 16
  if op = 0x01 ∧ rsv = 0 ∧ cnt = 0 then .vinit
  else if op = 0x02 ∧ rsv = 0 then .vrender cnt
  else if op = 0x03 ∧ rsv = 0 ∧ cnt = 0 then .vfree
  else .illegal

/-! ## From a target to an operation (R146) -/

/-- WR.NAME of a register. -/
def Instr.wrParam (p : Param) (d : Word) : Instr :=
  match p with
  | .ch1En => .wrCh1En d
  | .ch1Detune => .wrCh1Detune d
  | .ch1Vol => .wrCh1Vol d
  | .ch1EnvEn => .wrCh1EnvEn d
  | .ch1EnvLoop => .wrCh1EnvLoop d
  | .ch1EnvLen => .wrCh1EnvLen d
  | .ch1Duty => .wrCh1Duty d
  | .ch1SweepEn => .wrCh1SweepEn d
  | .ch1SweepAmt => .wrCh1SweepAmt d
  | .ch1SweepRate => .wrCh1SweepRate d
  | .ch2En => .wrCh2En d
  | .ch2Detune => .wrCh2Detune d
  | .ch2Vol => .wrCh2Vol d
  | .ch2EnvEn => .wrCh2EnvEn d
  | .ch2EnvLoop => .wrCh2EnvLoop d
  | .ch2EnvLen => .wrCh2EnvLen d
  | .ch2Duty => .wrCh2Duty d
  | .ch2SweepEn => .wrCh2SweepEn d
  | .ch2SweepAmt => .wrCh2SweepAmt d
  | .ch2SweepRate => .wrCh2SweepRate d
  | .ch3En => .wrCh3En d
  | .ch3Detune => .wrCh3Detune d
  | .ch3Vol => .wrCh3Vol d
  | .ch4En => .wrCh4En d
  | .ch4Vol => .wrCh4Vol d
  | .ch4EnvEn => .wrCh4EnvEn d
  | .ch4EnvLoop => .wrCh4EnvLoop d
  | .ch4EnvLen => .wrCh4EnvLen d
  | .ch4NoiseMode => .wrCh4NoiseMode d
  | .ch4NoiseFreqMode => .wrCh4NoiseFreqMode d
  | .ch4NoiseFreq => .wrCh4NoiseFreq d
  | .masterVol => .wrMasterVol d
  | .vibrato => .wrVibrato d

/-- RD.NAME of a register. -/
def Instr.rdParam (p : Param) : Instr :=
  match p with
  | .ch1En => .rdCh1En
  | .ch1Detune => .rdCh1Detune
  | .ch1Vol => .rdCh1Vol
  | .ch1EnvEn => .rdCh1EnvEn
  | .ch1EnvLoop => .rdCh1EnvLoop
  | .ch1EnvLen => .rdCh1EnvLen
  | .ch1Duty => .rdCh1Duty
  | .ch1SweepEn => .rdCh1SweepEn
  | .ch1SweepAmt => .rdCh1SweepAmt
  | .ch1SweepRate => .rdCh1SweepRate
  | .ch2En => .rdCh2En
  | .ch2Detune => .rdCh2Detune
  | .ch2Vol => .rdCh2Vol
  | .ch2EnvEn => .rdCh2EnvEn
  | .ch2EnvLoop => .rdCh2EnvLoop
  | .ch2EnvLen => .rdCh2EnvLen
  | .ch2Duty => .rdCh2Duty
  | .ch2SweepEn => .rdCh2SweepEn
  | .ch2SweepAmt => .rdCh2SweepAmt
  | .ch2SweepRate => .rdCh2SweepRate
  | .ch3En => .rdCh3En
  | .ch3Detune => .rdCh3Detune
  | .ch3Vol => .rdCh3Vol
  | .ch4En => .rdCh4En
  | .ch4Vol => .rdCh4Vol
  | .ch4EnvEn => .rdCh4EnvEn
  | .ch4EnvLoop => .rdCh4EnvLoop
  | .ch4EnvLen => .rdCh4EnvLen
  | .ch4NoiseMode => .rdCh4NoiseMode
  | .ch4NoiseFreqMode => .rdCh4NoiseFreqMode
  | .ch4NoiseFreq => .rdCh4NoiseFreq
  | .masterVol => .rdMasterVol
  | .vibrato => .rdVibrato

/-- The operation a write to CMD(v) selects (R188). -/
def Instr.ofCmd (v : VoiceId) (w : Word) : Instr :=
  match decodeCmd w with
  | .vinit => .vinit v
  | .vrender n => .vrender v n
  | .vfree => .vfree v
  | .illegal => .cmdIllegal v w

/-- The operation a BUS-R of address `a` selects. -/
def decodeRead (c : Config) (a : Word) : Instr :=
  match decodeBus c .r a with
  | .buserr => .busErr (.read a)
  | .param p => .rdParam p
  | .razwi => .rdRsv a
  | .gstatus => .rdGstatus
  | .ginfo => .rdGinfo
  | .cmd v => .rdCmd v
  | .status v => .rdStatus v
  | .freq v => .rdFreq v
  | .out v i s => .rdOut v i s

/-- The operation a BUS-W of `d` to address `a` selects.  `decodeBus` gives no OUT target to a write. -/
def decodeWrite (c : Config) (a d : Word) : Instr :=
  match decodeBus c .w a with
  | .buserr => .busErr (.write a d)
  | .param p => .wrParam p d
  | .razwi => .wrRsv a d
  | .gstatus => .wrGstatus d
  | .ginfo => .wrGinfo d
  | .cmd v => .ofCmd v d
  | .status v => .wrStatus v d
  | .freq v => .wrFreq v d
  | .out _ _ _ => .busErr (.write a d)

/-- The decoder: every transaction is exactly one operation (R145, R146). -/
def decode (c : Config) : Txn → Instr
  | .read a => decodeRead c a
  | .write a d => decodeWrite c a d

/-- The decoder on words: rejects a list that is no transaction, by name. -/
def decodeWords (c : Config) (ws : List Word) : Except FrameError Instr :=
  match Txn.ofWords ws with
  | .ok t => .ok (decode c t)
  | .error e => .error e

/-! ## The encoder -/

/-- The address of a Parameter Set register (R43). -/
def Param.addr (p : Param) : Word := BitVec.ofNat 32 p.offset

/-- The address of offset `o` of voice `v`'s register block (R66). -/
def voiceRegAddr (v : VoiceId) (o : Nat) : Word := BitVec.ofNat 32 (0x100 + 0x10 * v.val + o)

/-- The number of a channel: 0 = left, 1 = right (R106). -/
def Side.num : Side → Nat
  | .left => 0
  | .right => 1

/-- The byte address of the sample word of frame `i`, channel `c`, of voice `v` (R106). -/
def outAddr (v : VoiceId) (i : Nat) (c : Side) : Nat := 0x10000 * (v.val + 1) + 8 * i + 4 * c.num

/-- The VRENDER command word with frame count `n` (R143). -/
def vrenderWord (n : BitVec 16) : Word := 0x0200#16 ++ n

/-- The transaction of an operation. -/
def encode : Instr → Txn
  | .wrCh1En d => .write Param.ch1En.addr d
  | .wrCh1Detune d => .write Param.ch1Detune.addr d
  | .wrCh1Vol d => .write Param.ch1Vol.addr d
  | .wrCh1EnvEn d => .write Param.ch1EnvEn.addr d
  | .wrCh1EnvLoop d => .write Param.ch1EnvLoop.addr d
  | .wrCh1EnvLen d => .write Param.ch1EnvLen.addr d
  | .wrCh1Duty d => .write Param.ch1Duty.addr d
  | .wrCh1SweepEn d => .write Param.ch1SweepEn.addr d
  | .wrCh1SweepAmt d => .write Param.ch1SweepAmt.addr d
  | .wrCh1SweepRate d => .write Param.ch1SweepRate.addr d
  | .wrCh2En d => .write Param.ch2En.addr d
  | .wrCh2Detune d => .write Param.ch2Detune.addr d
  | .wrCh2Vol d => .write Param.ch2Vol.addr d
  | .wrCh2EnvEn d => .write Param.ch2EnvEn.addr d
  | .wrCh2EnvLoop d => .write Param.ch2EnvLoop.addr d
  | .wrCh2EnvLen d => .write Param.ch2EnvLen.addr d
  | .wrCh2Duty d => .write Param.ch2Duty.addr d
  | .wrCh2SweepEn d => .write Param.ch2SweepEn.addr d
  | .wrCh2SweepAmt d => .write Param.ch2SweepAmt.addr d
  | .wrCh2SweepRate d => .write Param.ch2SweepRate.addr d
  | .wrCh3En d => .write Param.ch3En.addr d
  | .wrCh3Detune d => .write Param.ch3Detune.addr d
  | .wrCh3Vol d => .write Param.ch3Vol.addr d
  | .wrCh4En d => .write Param.ch4En.addr d
  | .wrCh4Vol d => .write Param.ch4Vol.addr d
  | .wrCh4EnvEn d => .write Param.ch4EnvEn.addr d
  | .wrCh4EnvLoop d => .write Param.ch4EnvLoop.addr d
  | .wrCh4EnvLen d => .write Param.ch4EnvLen.addr d
  | .wrCh4NoiseMode d => .write Param.ch4NoiseMode.addr d
  | .wrCh4NoiseFreqMode d => .write Param.ch4NoiseFreqMode.addr d
  | .wrCh4NoiseFreq d => .write Param.ch4NoiseFreq.addr d
  | .wrMasterVol d => .write Param.masterVol.addr d
  | .wrVibrato d => .write Param.vibrato.addr d
  | .rdCh1En => .read Param.ch1En.addr
  | .rdCh1Detune => .read Param.ch1Detune.addr
  | .rdCh1Vol => .read Param.ch1Vol.addr
  | .rdCh1EnvEn => .read Param.ch1EnvEn.addr
  | .rdCh1EnvLoop => .read Param.ch1EnvLoop.addr
  | .rdCh1EnvLen => .read Param.ch1EnvLen.addr
  | .rdCh1Duty => .read Param.ch1Duty.addr
  | .rdCh1SweepEn => .read Param.ch1SweepEn.addr
  | .rdCh1SweepAmt => .read Param.ch1SweepAmt.addr
  | .rdCh1SweepRate => .read Param.ch1SweepRate.addr
  | .rdCh2En => .read Param.ch2En.addr
  | .rdCh2Detune => .read Param.ch2Detune.addr
  | .rdCh2Vol => .read Param.ch2Vol.addr
  | .rdCh2EnvEn => .read Param.ch2EnvEn.addr
  | .rdCh2EnvLoop => .read Param.ch2EnvLoop.addr
  | .rdCh2EnvLen => .read Param.ch2EnvLen.addr
  | .rdCh2Duty => .read Param.ch2Duty.addr
  | .rdCh2SweepEn => .read Param.ch2SweepEn.addr
  | .rdCh2SweepAmt => .read Param.ch2SweepAmt.addr
  | .rdCh2SweepRate => .read Param.ch2SweepRate.addr
  | .rdCh3En => .read Param.ch3En.addr
  | .rdCh3Detune => .read Param.ch3Detune.addr
  | .rdCh3Vol => .read Param.ch3Vol.addr
  | .rdCh4En => .read Param.ch4En.addr
  | .rdCh4Vol => .read Param.ch4Vol.addr
  | .rdCh4EnvEn => .read Param.ch4EnvEn.addr
  | .rdCh4EnvLoop => .read Param.ch4EnvLoop.addr
  | .rdCh4EnvLen => .read Param.ch4EnvLen.addr
  | .rdCh4NoiseMode => .read Param.ch4NoiseMode.addr
  | .rdCh4NoiseFreqMode => .read Param.ch4NoiseFreqMode.addr
  | .rdCh4NoiseFreq => .read Param.ch4NoiseFreq.addr
  | .rdMasterVol => .read Param.masterVol.addr
  | .rdVibrato => .read Param.vibrato.addr
  | .wrRsv a d => .write a d
  | .rdRsv a => .read a
  | .wrGstatus d => .write 0x000000F0#32 d
  | .rdGstatus => .read 0x000000F0#32
  | .wrGinfo d => .write 0x000000F4#32 d
  | .rdGinfo => .read 0x000000F4#32
  | .vinit v => .write (voiceRegAddr v 0x0) 0x01000000#32
  | .vrender v n => .write (voiceRegAddr v 0x0) (vrenderWord n)
  | .vfree v => .write (voiceRegAddr v 0x0) 0x03000000#32
  | .cmdIllegal v w => .write (voiceRegAddr v 0x0) w
  | .rdCmd v => .read (voiceRegAddr v 0x0)
  | .rdStatus v => .read (voiceRegAddr v 0x4)
  | .wrStatus v d => .write (voiceRegAddr v 0x4) d
  | .wrFreq v d => .write (voiceRegAddr v 0x8) d
  | .rdFreq v => .read (voiceRegAddr v 0x8)
  | .rdOut v i c => .read (BitVec.ofNat 32 (outAddr v i.toNat c))
  | .busErr t => t

/-! ## The opcode table's words

The table gives each row one 32-bit word, and the word's direction stands beside it, not in it.  DESIGN CHOICE, log
entry 3: a word that is a legal command (a CMD row, whose match applies to the data word) is written to CMD(0); any
other word alone is a BUS-R of that address; a word with a data word above it is a BUS-W. -/

/-- The transaction whose words, numbered as the table numbers them, are the number `w`. -/
def tableTxn (nbits w : Nat) : Txn :=
  let w0 : Word := BitVec.ofNat 32 w
  if nbits ≤ 32 then
    if decodeCmd w0 = .illegal then .read w0 else .write (voiceRegAddr 0 0x0) w0
  else .write w0 (BitVec.ofNat 32 (w / 2 ^ 32))

/-- What the decoder reads from a table word, in a block with the reset configuration. -/
def decodeTableWord (nbits w : Nat) : Option Instr := some (decode Config.tc (tableTxn nbits w))

end Sys2Proof
end

