-- ==== Sys2Proof/Machine/State.lean ====
section
/-! DEFINITION. The block's state as plain data (10_state.md, 20_memory.md R106), the host's side of the bus, the
reasons a step can stop, and the state after block reset (70_reset_and_hazards.md R440). -/

namespace Sys2Proof.Machine

/-! ## The Parameter Set (R43): each register holds one integer (R44) -/

/-- The registers of a tone channel (R43, R46-R55). -/
structure ToneParams where
  en : Int
  detune : Int
  vol : Int
  envEn : Int
  envLoop : Int
  envLen : Int
  duty : Int
  sweepEn : Int
  sweepAmt : Int
  sweepRate : Int
deriving DecidableEq, Repr

/-- The registers of the triangle channel (R56). -/
structure TriParams where
  en : Int
  detune : Int
  vol : Int
deriving DecidableEq, Repr

/-- The registers of the noise channel (R57-R59). -/
structure NoiseParams where
  en : Int
  vol : Int
  envEn : Int
  envLoop : Int
  envLen : Int
  noiseMode : Int
  noiseFreqMode : Int
  noiseFreq : Int
deriving DecidableEq, Repr

/-- The Parameter Set, shared by all voices (R43). -/
structure Params where
  ch1 : ToneParams
  ch2 : ToneParams
  ch3 : TriParams
  ch4 : NoiseParams
  masterVol : Int
  vibrato : Int
deriving DecidableEq, Repr

/-! ## The hidden voice state (R69) -/

/-- An envelope: V.envCtr and V.envVal of one channel. -/
structure Envelope where
  ctr : Nat
  val : Nat
deriving DecidableEq, Repr

/-- The fields of one tone channel: V.wlen, V.phase, V.sweepCtr and its envelope. -/
structure ToneState where
  wlen : Nat
  phase : Nat
  sweepCtr : Nat
  env : Envelope
deriving DecidableEq, Repr

/-- Every field of R69 except V.alive. -/
structure VoiceState where
  cachedFreq : Word
  maxWlen : Nat
  ch1 : ToneState
  ch2 : ToneState
  wlen3 : Nat
  phase3 : BitVec 32
  wlen4 : Nat
  phase4 : Nat
  env4 : Envelope
  lfsr : BitVec 16
  m12 : F32
  m34 : F32
  xPrev : F32
  yPrev : F32
deriving DecidableEq, Repr

/-- The error codes of 60_exceptions.md R401; codes 5-15 are never recorded. -/
inductive ErrCode where
  | none
  | illegalCmd
  | voiceDead
  | badCount
  | badFreq
deriving DecidableEq, Repr

/-- The model's side of the dither source of one voice (log entry 6): samples already supplied from outside, oldest
first, and how many draws the voice has made. -/
structure DitherFeed where
  queue : List F32
  drawn : Nat
deriving DecidableEq, Repr

/-- One voice slot: STATUS.ALIVE, STATUS.ERR, FREQ (R67, R68), the hidden state (R69), and its dither feed. -/
structure Voice where
  alive : Bool
  err : ErrCode
  freq : Word
  hid : VoiceState
  feed : DitherFeed
deriving DecidableEq, Repr

/-! ## The whole machine -/

/-- What the outside gives the block: a host transaction, or block reset, which falls between transactions (R441). -/
inductive Event where
  | txn (t : Txn)
  | reset
deriving DecidableEq, Repr

/-- The output-buffer memory: bytes by host bus address, addresses strictly rising (log entries 11 and 12). -/
abbrev Mem := List Host.Cell

/-- The state of the block and of the host's side of its bus. -/
structure State where
  /-- The construction parameters (R8, R9); no step changes them. -/
  cfg : Config
  /-- The Parameter Set (R43). -/
  params : Params
  /-- GSTATUS.BUSERR (R64). -/
  busErr : Bool
  /-- The 16 voice slots (R66); those from NUM_VOICES on are absent. -/
  voices : Vector Voice 16
  /-- The output buffers (R106). -/
  mem : Mem
  /-- Host side, log entry 2: events not yet accepted, in issue order (R113). -/
  inbox : List Event
  /-- Host side, log entry 2: the word the last transaction returned, if it was a read. -/
  reply : Option Word
  /-- Free values, log entry 5: numbers the VFREE commands that left a voice unspecified. -/
  freeSerial : Nat
deriving DecidableEq, Repr

/-- Why the machine stops although the transaction was accepted. -/
inductive Fault where
  /-- RD.OUT of a word no render has written since block reset: the spec has the model fault and not invent the
  value (R108, 93_implementation_defined.md I3).  Safe. -/
  | unwrittenOutput (v : VoiceId) (i : BitVec 13) (c : Side)
deriving DecidableEq, Repr

/-- Why a step is refused. -/
inductive Refusal where
  /-- An instruction without a meaning; raised by no arm of this model.  Safe. -/
  | notModelled (mnemonic : String)
  /-- Raised by `step` alone: the configuration breaks R8 or R10, and the spec has the model refuse it (R10, I8).
  Safe. -/
  | badConfig
deriving DecidableEq, Repr

/-! ## Block reset (R440) -/

/-- A tone channel's registers after block reset. -/
def ToneParams.reset : ToneParams :=
  { en := 0, detune := 0, vol := 0, envEn := 0, envLoop := 0, envLen := 0, duty := 0, sweepEn := 0, sweepAmt := 0,
    sweepRate := 0 }

/-- The Parameter Set after block reset: all 0 but MASTER_VOL. -/
def Params.reset : Params :=
  { ch1 := ToneParams.reset, ch2 := ToneParams.reset, ch3 := { en := 0, detune := 0, vol := 0 },
    ch4 := { en := 0, vol := 0, envEn := 0, envLoop := 0, envLen := 0, noiseMode := 0, noiseFreqMode := 0,
             noiseFreq := 0 },
    masterVol := 16384, vibrato := 0 }

/-- DESIGN CHOICE, log entry 4: the hidden voice state after block reset, which the spec leaves unspecified and no
rule reads. -/
def VoiceState.reset : VoiceState :=
  { cachedFreq := 0, maxWlen := 0, ch1 := ⟨0, 0, 0, ⟨0, 0⟩⟩, ch2 := ⟨0, 0, 0, ⟨0, 0⟩⟩, wlen3 := 0, phase3 := 0,
    wlen4 := 0, phase4 := 0, env4 := ⟨0, 0⟩, lfsr := 0, m12 := 0, m34 := 0, xPrev := 0, yPrev := 0 }

/-- A voice slot after block reset, with its dither feed as it is: the source lies outside the block (R440), and that
the feed stays is the model's choice (log entry 6). -/
def Voice.reset (feed : DitherFeed) : Voice :=
  { alive := false, err := .none, freq := 0, hid := VoiceState.reset, feed := feed }

/-- A block of configuration `c` right after block reset. -/
def State.resetWith (c : Config) : State :=
  { cfg := c, params := Params.reset, busErr := false, voices := Vector.replicate 16 (Voice.reset ⟨[], 0⟩), mem := [],
    inbox := [], reply := none, freeSerial := 0 }

/-- The machine right after reset, built with the test configuration (log entry 1). -/
def State.reset : State := State.resetWith Config.tc

end Sys2Proof.Machine
end

