-- ==== Sys2Proof/Machine/Flags.lean ====
section
/-! DEFINITION. The status words (10_state.md R42: the block has no arithmetic flags; its only status bits are
GSTATUS.BUSERR and STATUS(v).ALIVE and ERR). -/

namespace Sys2Proof.Machine

/-- A one-bit field. -/
def bit (b : Bool) : BitVec 1 := if b then 1#1 else 0#1

/-- The 4-bit code of an error (60_exceptions.md R401). -/
def errBits : ErrCode → BitVec 4
  | .none => 0#4
  | .illegalCmd => 1#4
  | .voiceDead => 2#4
  | .badCount => 3#4
  | .badFreq => 4#4

/-- The word STATUS(v) reads: 20 zeros, ERR, 7 zeros, ALIVE (R67, 40_host_bus.md R190). -/
def statusWord (x : Voice) : Word := 0#20 ++ errBits x.err ++ 0#7 ++ bit x.alive

/-- The word GSTATUS reads: 31 zeros, BUSERR (R64, R186). -/
def gstatusWord (busErr : Bool) : Word := 0#31 ++ bit busErr

/-- The word GINFO reads: BLOCK_FRAMES, 8 zeros, NUM_VOICES (R65, R187). -/
def ginfoWord (c : Config) : Word := BitVec.ofNat 16 c.blockFrames ++ 0#8 ++ BitVec.ofNat 8 c.numVoices

/-- GSTATUS.BUSERR after a write of `d`: bit 0 = 1 clears it, the other bits are ignored (R185). -/
def busErrAfterWrite (d : Word) (busErr : Bool) : Bool := if d.getLsbD 0 then false else busErr

/-- STATUS.ERR after error `code` is raised: the first error is kept (60_exceptions.md R404). -/
def errAfterRaise (code old : ErrCode) : ErrCode := if old = .none then code else old

end Sys2Proof.Machine
end

