-- ==== Sys2Proof/Machine/Memory.lean ====
section
/-! DEFINITION. The output-buffer memory as a canonical list of bytes (20_memory.md R104, R106, R108).

An address no render has written has no value (R108: "A model must not give an unspecified word a value"), so the list
names exactly the written bytes. -/

namespace Sys2Proof.Machine

/-- What an unlisted address reads as: nothing (R108, log entry 11). -/
def Mem.unlisted : Option Byte := none

/-- The canonical form: addresses strictly rising.  Every listed byte differs from `Mem.unlisted`. -/
def Mem.wf : Mem → Bool
  | [] => true
  | [_] => true
  | (a, _) :: (b, y) :: m => decide (a < b) && Mem.wf ((b, y) :: m)

/-- The byte at address `a`, if a render has written it. -/
def Mem.readByte : Mem → Nat → Option Byte
  | [], _ => Mem.unlisted
  | (b, y) :: m, a => if a = b then some y else if a < b then Mem.unlisted else Mem.readByte m a

/-- The memory with byte `x` at address `a`. -/
def Mem.writeByte : Mem → Nat → Byte → Mem
  | [], a, x => [(a, x)]
  | (b, y) :: m, a, x =>
    if a < b then (a, x) :: (b, y) :: m
    else if a = b then (a, x) :: m
    else (b, y) :: Mem.writeByte m a x

/-- Byte `j` of a word, 0 the least significant (R104). -/
def byteOf (w : Word) (j : Nat) : Byte := w.extractLsb' (8 * j) 8

/-- The memory with the word `w` at byte address `a`, little-endian (R104). -/
def Mem.writeWord (m : Mem) (a : Nat) (w : Word) : Mem :=
  (((m.writeByte a (byteOf w 0)).writeByte (a + 1) (byteOf w 1)).writeByte (a + 2) (byteOf w 2)).writeByte (a + 3)
    (byteOf w 3)

/-- The word at byte address `a`, if all four of its bytes have been written. -/
def Mem.readWord (m : Mem) (a : Nat) : Option Word :=
  match m.readByte a, m.readByte (a + 1), m.readByte (a + 2), m.readByte (a + 3) with
  | some b0, some b1, some b2, some b3 => some (b3 ++ b2 ++ b1 ++ b0)
  | _, _, _, _ => none

end Sys2Proof.Machine
end

