-- ==== Sys2Proof/Machine/Operands.lean ====
section
/-! DEFINITION. Operand assembly (30_encoding.md R142) and the accessors of the Parameter Set (10_state.md R43, R44). -/

namespace Sys2Proof.Machine

/-- clamp(v, lo, hi) of 00_scope.md R12. -/
def clamp (v lo hi : Int) : Int := if v < lo then lo else if hi < v then hi else v

/-- sext_32(v) (R12, R142). -/
def sext32 (d : Word) : Int := d.toInt

/-- An integer as a 32-bit two's-complement word (R44, R105). -/
def wordOfInt (n : Int) : Word := BitVec.ofInt 32 n

/-- COUNT as N = zext_16(word[15:0]) (R142). -/
def frameCount (n : BitVec 16) : Nat := n.toNat

/-- The least legal value of a register (R43). -/
def Param.lo : Param → Int
  | .ch1En => 0
  | .ch1Detune => -24
  | .ch1Vol => 0
  | .ch1EnvEn => 0
  | .ch1EnvLoop => 0
  | .ch1EnvLen => 0
  | .ch1Duty => 0
  | .ch1SweepEn => 0
  | .ch1SweepAmt => -7
  | .ch1SweepRate => 0
  | .ch2En => 0
  | .ch2Detune => -24
  | .ch2Vol => 0
  | .ch2EnvEn => 0
  | .ch2EnvLoop => 0
  | .ch2EnvLen => 0
  | .ch2Duty => 0
  | .ch2SweepEn => 0
  | .ch2SweepAmt => -7
  | .ch2SweepRate => 0
  | .ch3En => 0
  | .ch3Detune => -24
  | .ch3Vol => 0
  | .ch4En => 0
  | .ch4Vol => 0
  | .ch4EnvEn => 0
  | .ch4EnvLoop => 0
  | .ch4EnvLen => 0
  | .ch4NoiseMode => 0
  | .ch4NoiseFreqMode => 0
  | .ch4NoiseFreq => 0
  | .masterVol => 0
  | .vibrato => 0

/-- The greatest legal value of a register (R43). -/
def Param.hi : Param → Int
  | .ch1En => 1
  | .ch1Detune => 24
  | .ch1Vol => 15
  | .ch1EnvEn => 1
  | .ch1EnvLoop => 1
  | .ch1EnvLen => 15
  | .ch1Duty => 3
  | .ch1SweepEn => 1
  | .ch1SweepAmt => 7
  | .ch1SweepRate => 7
  | .ch2En => 1
  | .ch2Detune => 24
  | .ch2Vol => 15
  | .ch2EnvEn => 1
  | .ch2EnvLoop => 1
  | .ch2EnvLen => 15
  | .ch2Duty => 3
  | .ch2SweepEn => 1
  | .ch2SweepAmt => 7
  | .ch2SweepRate => 7
  | .ch3En => 1
  | .ch3Detune => 24
  | .ch3Vol => 15
  | .ch4En => 1
  | .ch4Vol => 15
  | .ch4EnvEn => 1
  | .ch4EnvLoop => 1
  | .ch4EnvLen => 15
  | .ch4NoiseMode => 1
  | .ch4NoiseFreqMode => 1
  | .ch4NoiseFreq => 15
  | .masterVol => 32768
  | .vibrato => 15

/-- The integer a register holds. -/
def Params.get (ps : Params) : Param → Int
  | .ch1En => ps.ch1.en
  | .ch1Detune => ps.ch1.detune
  | .ch1Vol => ps.ch1.vol
  | .ch1EnvEn => ps.ch1.envEn
  | .ch1EnvLoop => ps.ch1.envLoop
  | .ch1EnvLen => ps.ch1.envLen
  | .ch1Duty => ps.ch1.duty
  | .ch1SweepEn => ps.ch1.sweepEn
  | .ch1SweepAmt => ps.ch1.sweepAmt
  | .ch1SweepRate => ps.ch1.sweepRate
  | .ch2En => ps.ch2.en
  | .ch2Detune => ps.ch2.detune
  | .ch2Vol => ps.ch2.vol
  | .ch2EnvEn => ps.ch2.envEn
  | .ch2EnvLoop => ps.ch2.envLoop
  | .ch2EnvLen => ps.ch2.envLen
  | .ch2Duty => ps.ch2.duty
  | .ch2SweepEn => ps.ch2.sweepEn
  | .ch2SweepAmt => ps.ch2.sweepAmt
  | .ch2SweepRate => ps.ch2.sweepRate
  | .ch3En => ps.ch3.en
  | .ch3Detune => ps.ch3.detune
  | .ch3Vol => ps.ch3.vol
  | .ch4En => ps.ch4.en
  | .ch4Vol => ps.ch4.vol
  | .ch4EnvEn => ps.ch4.envEn
  | .ch4EnvLoop => ps.ch4.envLoop
  | .ch4EnvLen => ps.ch4.envLen
  | .ch4NoiseMode => ps.ch4.noiseMode
  | .ch4NoiseFreqMode => ps.ch4.noiseFreqMode
  | .ch4NoiseFreq => ps.ch4.noiseFreq
  | .masterVol => ps.masterVol
  | .vibrato => ps.vibrato

/-- The Parameter Set with one register holding `x`. -/
def Params.set (ps : Params) (p : Param) (x : Int) : Params :=
  match p with
  | .ch1En => { ps with ch1 := { ps.ch1 with en := x } }
  | .ch1Detune => { ps with ch1 := { ps.ch1 with detune := x } }
  | .ch1Vol => { ps with ch1 := { ps.ch1 with vol := x } }
  | .ch1EnvEn => { ps with ch1 := { ps.ch1 with envEn := x } }
  | .ch1EnvLoop => { ps with ch1 := { ps.ch1 with envLoop := x } }
  | .ch1EnvLen => { ps with ch1 := { ps.ch1 with envLen := x } }
  | .ch1Duty => { ps with ch1 := { ps.ch1 with duty := x } }
  | .ch1SweepEn => { ps with ch1 := { ps.ch1 with sweepEn := x } }
  | .ch1SweepAmt => { ps with ch1 := { ps.ch1 with sweepAmt := x } }
  | .ch1SweepRate => { ps with ch1 := { ps.ch1 with sweepRate := x } }
  | .ch2En => { ps with ch2 := { ps.ch2 with en := x } }
  | .ch2Detune => { ps with ch2 := { ps.ch2 with detune := x } }
  | .ch2Vol => { ps with ch2 := { ps.ch2 with vol := x } }
  | .ch2EnvEn => { ps with ch2 := { ps.ch2 with envEn := x } }
  | .ch2EnvLoop => { ps with ch2 := { ps.ch2 with envLoop := x } }
  | .ch2EnvLen => { ps with ch2 := { ps.ch2 with envLen := x } }
  | .ch2Duty => { ps with ch2 := { ps.ch2 with duty := x } }
  | .ch2SweepEn => { ps with ch2 := { ps.ch2 with sweepEn := x } }
  | .ch2SweepAmt => { ps with ch2 := { ps.ch2 with sweepAmt := x } }
  | .ch2SweepRate => { ps with ch2 := { ps.ch2 with sweepRate := x } }
  | .ch3En => { ps with ch3 := { ps.ch3 with en := x } }
  | .ch3Detune => { ps with ch3 := { ps.ch3 with detune := x } }
  | .ch3Vol => { ps with ch3 := { ps.ch3 with vol := x } }
  | .ch4En => { ps with ch4 := { ps.ch4 with en := x } }
  | .ch4Vol => { ps with ch4 := { ps.ch4 with vol := x } }
  | .ch4EnvEn => { ps with ch4 := { ps.ch4 with envEn := x } }
  | .ch4EnvLoop => { ps with ch4 := { ps.ch4 with envLoop := x } }
  | .ch4EnvLen => { ps with ch4 := { ps.ch4 with envLen := x } }
  | .ch4NoiseMode => { ps with ch4 := { ps.ch4 with noiseMode := x } }
  | .ch4NoiseFreqMode => { ps with ch4 := { ps.ch4 with noiseFreqMode := x } }
  | .ch4NoiseFreq => { ps with ch4 := { ps.ch4 with noiseFreq := x } }
  | .masterVol => { ps with masterVol := x }
  | .vibrato => { ps with vibrato := x }

/-- What a write of `d` to register `p` stores: clamp(sext_32(data), lo, hi) (R182). -/
def paramStored (p : Param) (d : Word) : Int := clamp (sext32 d) (Param.lo p) (Param.hi p)

end Sys2Proof.Machine
end

