-- ==== Sys2Proof/Machine/Float.lean ====
section
/-! DEFINITION. binary32 arithmetic (00_scope.md R14, R15): each operation is exact, then rounded once to nearest, ties
to even, subnormals kept.

A finite binary32 is a sign and a whole number of units of 2^-149, the smallest subnormal; sums are exact in that unit
and products and quotients are exact fractions of it, so one rounding function serves all.  What R14 does not say
(infinities, division by zero, NaN) follows IEEE 754, PRESUMED, log entry 8; the bits of a NaN an operation gives are
free. -/

namespace Sys2Proof

/-- The sign bit (R105). -/
def F32.neg? (x : F32) : Bool := x.getLsbD 31

/-- Exponent and fraction together, bits 30:0 (R105). -/
def F32.mag (x : F32) : Nat := x.toNat % 2 ^ 31

def F32.isNaN (x : F32) : Bool := decide (0x7F800000 < F32.mag x)

def F32.isInf (x : F32) : Bool := decide (F32.mag x = 0x7F800000)

def F32.isZero (x : F32) : Bool := decide (F32.mag x = 0)

/-- The magnitude of a finite value, in units of 2^-149. -/
def F32.units (x : F32) : Nat :=
  let e := F32.mag x / 2 ^ 23
  let f := F32.mag x % 2 ^ 23
  if e = 0 then f else (2 ^ 23 + f) * 2 ^ (e - 1)

/-- The value of a finite binary32, in units of 2^-149. -/
def F32.value (x : F32) : Int := if F32.neg? x then -(F32.units x : Int) else (F32.units x : Int)

/-- The word with sign `s` and bits 30:0 equal to `m`. -/
def F32.pack (s : Bool) (m : Nat) : F32 := BitVec.ofNat 32 ((if s then 2 ^ 31 else 0) + m)

/-- Bits 30:0 of the value of `u` units, for a `u` that binary32 represents; infinity's from 2^128 on. -/
def F32.magOfUnits (u : Nat) : Nat :=
  if u < 2 ^ 24 then u
  else
    let sh := Nat.log2 u - 23
    min (sh * 2 ^ 23 + u / 2 ^ sh) 0x7F800000

/-- `n / d` rounded to a whole number, ties to even. -/
def roundHalfEven (n d : Nat) : Nat :=
  let q := n / d
  let r := n % d
  if 2 * r < d then q else if d < 2 * r then q + 1 else q + q % 2

/-- The spacing of binary32 values around `n / d` units: 24 significant bits, but never less than one unit. -/
def F32.spacing (n d : Nat) : Nat := 2 ^ (Nat.log2 (n / d) - 23)

/-- `n / d` units rounded to binary32 (exponent unbounded above). -/
def F32.roundUnits (n d : Nat) : Nat := roundHalfEven n (d * F32.spacing n d) * F32.spacing n d

/-- fl32 of the value `n / d` units with sign `s` (R14). -/
def F32.round (s : Bool) (n d : Nat) : F32 := F32.pack s (F32.magOfUnits (F32.roundUnits n d))

/-- An infinity. -/
def F32.inf (s : Bool) : F32 := F32.pack s 0x7F800000

/-- The NaN operation `op` gives on `x`, `y`: a NaN whose sign and fraction are free. -/
def F32.someNaN (op : Nat) (x y : F32) : F32 :=
  if F32.isNaN (Config.freeNaN op x y) then Config.freeNaN op x y else 0x7FC00000#32

/-- `-x`, exact. -/
def F32.neg (x : F32) : F32 := x ^^^ 0x80000000#32

/-- The sum of two finite values; an exact zero sum is +0 unless both are -0. -/
def F32.addFinite (x y : F32) : F32 :=
  let v := F32.value x + F32.value y
  if v = 0 then F32.pack (F32.neg? x && F32.neg? y) 0 else F32.round (decide (v < 0)) v.natAbs 1

/-- fl32(x + y). -/
def F32.add (x y : F32) : F32 :=
  if F32.isNaN x || F32.isNaN y then F32.someNaN 0 x y
  else if F32.isInf x then
    if F32.isInf y && (F32.neg? x != F32.neg? y) then F32.someNaN 0 x y else x
  else if F32.isInf y then y
  else F32.addFinite x y

/-- fl32(x - y). -/
def F32.sub (x y : F32) : F32 := F32.add x (F32.neg y)

/-- fl32(x * y). -/
def F32.mul (x y : F32) : F32 :=
  let s := F32.neg? x != F32.neg? y
  if F32.isNaN x || F32.isNaN y then F32.someNaN 1 x y
  else if F32.isInf x || F32.isInf y then
    if F32.isZero x || F32.isZero y then F32.someNaN 1 x y else F32.inf s
  else F32.round s (F32.units x * F32.units y) (2 ^ 149)

/-- fl32(x / y). -/
def F32.div (x y : F32) : F32 :=
  let s := F32.neg? x != F32.neg? y
  if F32.isNaN x || F32.isNaN y then F32.someNaN 2 x y
  else if F32.isInf x then
    if F32.isInf y then F32.someNaN 2 x y else F32.inf s
  else if F32.isInf y then F32.pack s 0
  else if F32.isZero y then
    if F32.isZero x then F32.someNaN 2 x y else F32.inf s
  else F32.round s (F32.units x * 2 ^ 149) (F32.units y)

/-- float(n) of R15. -/
def F32.ofNat (n : Nat) : F32 := F32.round false (n * 2 ^ 149) 1

/-- trunc(q) of R15, for a finite q ≥ 0. -/
def F32.trunc (q : F32) : Nat := F32.units q / 2 ^ 149

/-- A whole number that orders the non-NaN words as their values are ordered. -/
def F32.key (x : F32) : Int := if F32.neg? x then -(F32.mag x : Int) else (F32.mag x : Int)

/-- Numeric `x < y`; false on a NaN. -/
def F32.lt (x y : F32) : Bool := !F32.isNaN x && !F32.isNaN y && decide (F32.key x < F32.key y)

/-- Numeric `x ≤ y`; false on a NaN. -/
def F32.le (x y : F32) : Bool := !F32.isNaN x && !F32.isNaN y && decide (F32.key x ≤ F32.key y)

/-- +0.0 -/
def F32.zero : F32 := 0x00000000#32

/-- 1.0 -/
def F32.one : F32 := 0x3F800000#32

end Sys2Proof
end

