-- ==== Sys2Proof/Machine/Wavelength.lean ====
section
/-! DEFINITION. Frequencies, periods and the configuration's tables (41_voice_commands.md R225, R226, R236; 00_scope.md
R16, R17), and the check of a configuration (R8, R10). -/

namespace Sys2Proof

/-- validFreq (R225): the encoding of a finite number greater than zero. -/
def validFreq (f : Word) : Bool := decide (1 ≤ f.toNat) && decide (f.toNat ≤ 0x7F7FFFFF)

/-- wavelength of a binary32 (R226).  At +0.0, which only an underflow of FREQ x MULT gives, the quotient is
+infinity and the result saturates: DEDUCED, log entry 9. -/
def wavelength (c : Config) (x : F32) : Nat :=
  let q := F32.div (F32.ofNat c.sampleRate) x
  if F32.le (F32.ofNat (2 ^ 31)) q then 2 ^ 31 - 1 else F32.trunc q

/-- wavelength of a whole number of Hz, taken as float(r) (R226). -/
def wavelengthNat (c : Config) (r : Nat) : Nat := wavelength c (F32.ofNat r)

/-- MAX_WLEN (R10). -/
def Config.maxWlen (c : Config) : Nat := wavelength c c.minFreq

/-- inRange (R236), against the voice's V.maxWlen. -/
def inRange (c : Config) (maxWlen w : Nat) : Bool := decide (c.minWlen ≤ w) && decide (w ≤ maxWlen)

/-- MULT[d] (R17, R62).  No legal detune lies outside the table. -/
def Config.multAt (c : Config) (d : Int) : F32 := c.mult.getD (d + 24).toNat F32.one

/-- NOISE_FREQS[i] (R229).  No legal index lies outside the table. -/
def Config.noiseFreqAt (c : Config) (i : Nat) : F32 := c.noiseFreqs.getD i F32.one

/-- TRI_TABLE[i] (R312).  No index the triangle computes lies outside the table. -/
def Config.triAt (c : Config) (i : Nat) : Nat := c.triTable.getD i 0

/-- POW of R16: (d) POW(a, 1) = a, (a) POW(0, k) = 0, (b) POW(1, k) = 1, (c) in [0, 1] for a in [0, 1]; elsewhere, and
within those bounds, the value is the free `Config.freePow` (log entry 7). -/
def powConfig (a k : F32) : F32 :=
  if k = F32.one then a
  else if F32.isZero a then F32.zero
  else if a = F32.one then F32.one
  else if F32.lt a F32.one then
    if F32.le F32.zero (Config.freePow a k) && F32.le (Config.freePow a k) F32.one then Config.freePow a k
    else F32.zero
  else Config.freePow a k

/-- The ranges of R8 and the constraints of R10 and R17.  That every MULT entry is finite and positive is DEDUCED from
"standing for 2^(d/12)" and the domain of R226, log entry 10. -/
def Config.wf (c : Config) : Bool :=
  decide (1 ≤ c.sampleRate) && decide (c.sampleRate ≤ 2 ^ 24) &&
  decide (1 ≤ c.blockFrames) && decide (c.blockFrames ≤ 8192) &&
  decide (1 ≤ c.numVoices) && decide (c.numVoices ≤ 16) &&
  validFreq c.minFreq && decide (1 ≤ c.minWlen) && decide (c.minWlen ≤ c.maxWlen) &&
  decide (1 ≤ c.lfsrSeed.toNat) && decide (c.lfsrSeed.toNat ≤ 0x7FFF) &&
  c.noiseFreqs.toList.all validFreq &&
  (List.range 15).all (fun i => F32.lt (c.noiseFreqAt i) (c.noiseFreqAt (i + 1))) &&
  c.triTable.toList.all (fun t => decide (t ≤ 15)) &&
  c.mult.toList.all validFreq &&
  decide (c.multAt 0 = 0x3F800000#32) && decide (c.multAt 12 = 0x40000000#32) &&
  decide (c.multAt 24 = 0x40800000#32) && decide (c.multAt (-12) = 0x3F000000#32) &&
  decide (c.multAt (-24) = 0x3E800000#32) &&
  F32.lt F32.zero c.k &&
  F32.le F32.zero c.ditherAmp && F32.lt c.ditherAmp F32.one &&
  F32.le F32.zero c.lpfBeta && F32.lt c.lpfBeta F32.one &&
  F32.lt F32.zero c.w12 && F32.lt F32.zero c.w34 && F32.lt F32.zero c.wAll

end Sys2Proof
end

