-- ==== Sys2Proof/Machine/Ops.lean ====
section
/-! DEFINITION. The operations the meanings share: the answer of a transaction, the two recorded errors, the voice
slots, the output buffers, the dither draws, block reset. -/

namespace Sys2Proof.Machine

/-- The outcome of one transaction. -/
abbrev Out := Host.Outcome State Fault Refusal

/-- A write or command is complete: it returns no word (log entry 2). -/
def done (s : State) : Out := .next { s with reply := none }

/-- A read is complete: it returns `w` and changes nothing else (20_memory.md R112). -/
def answer (w : Word) (s : State) : Out := .next { s with reply := some w }

/-- What a block does when it is one: a configuration that breaks 00_scope.md R8 or R10 is refused (R10, log entry 13). -/
def guardConfig (s : State) (o : Out) : Out := if s.cfg.wf then o else .refused .badConfig

/-! ## Recorded errors: what the block has in place of exceptions (60_exceptions.md R400, R411) -/

/-- The bus error (40_host_bus.md R180): BUSERR is set, a read returns 0, a write changes nothing else. -/
def busError (dir : Dir) (s : State) : Out :=
  match dir with
  | .r => answer 0#32 { s with busErr := true }
  | .w => done { s with busErr := true }

/-- The state with slot `v` holding `x`. -/
def setVoice (s : State) (v : VoiceId) (x : Voice) : State := { s with voices := s.voices.set v.val x v.isLt }

/-- Slot `v`. -/
def getVoice (s : State) (v : VoiceId) : Voice := s.voices[v.val]'v.isLt

/-- raise Error(code) in a command of voice `v` (R404): the first error is kept, the command ends with no other effect.
There is no return from an error (R412). -/
def raiseError (code : ErrCode) (v : VoiceId) (s : State) : Out :=
  done (setVoice s v { getVoice s v with err := errAfterRaise code (getVoice s v).err })

/-- An operation on voice `v`, which is a bus error where the slot is absent (R145, R188; log entry 14). -/
def onVoice (v : VoiceId) (dir : Dir) (s : State) (k : Voice → Out) : Out :=
  if v.present s.cfg then k (getVoice s v) else busError dir s

/-! ## Output buffers (20_memory.md R106) -/

/-- OutWrite(v, i, c, w) (00_scope.md R13, R106). -/
def outWrite (v : VoiceId) (i : Nat) (c : Side) (w : Word) (m : Mem) : Mem := m.writeWord (outAddr v i c) w

/-- The word OutWrite last stored at (v, i, c), if there is one (40_host_bus.md R195). -/
def outRead (v : VoiceId) (i : Nat) (c : Side) (m : Mem) : Option Word := m.readWord (outAddr v i c)

/-- Both words of frame `i`, left then right (45_mixer_dac.md R360, R374). -/
def outFrame (v : VoiceId) (i : Nat) (y : F32) (m : Mem) : Mem := outWrite v i .right y (outWrite v i .left y m)

/-! ## Dither draws (45_mixer_dac.md R361) -/

/-- A word brought into the range of a draw, -1 ≤ d ≤ 1; a word outside it becomes +0.0. -/
def toUnitRange (w : F32) : F32 := if F32.mag w ≤ 0x3F800000 then w else F32.zero

/-- draw Dither() of voice `v`: the oldest sample supplied from outside, else a free one (log entry 6). -/
def DitherFeed.draw (v : VoiceId) (f : DitherFeed) : F32 × DitherFeed :=
  match f.queue with
  | d :: q => (toUnitRange d, { queue := q, drawn := f.drawn + 1 })
  | [] => (toUnitRange (Config.freeDither v.val f.drawn), { queue := [], drawn := f.drawn + 1 })

/-! ## Creating and leaving a voice's hidden state (10_state.md R69) -/

/-- A tone channel at VINIT (41_voice_commands.md R220). -/
def ToneState.init : ToneState := { wlen := 0, phase := 0, sweepCtr := 0, env := { ctr := 0, val := 15 } }

/-- The hidden state VINIT sets (R69, R220). -/
def VoiceState.init (c : Config) : VoiceState :=
  { cachedFreq := 0#32, maxWlen := wavelength c c.minFreq, ch1 := ToneState.init, ch2 := ToneState.init, wlen3 := 0,
    phase3 := 0#32, wlen4 := 0, phase4 := 0, env4 := { ctr := 0, val := 15 }, lfsr := c.lfsrSeed, m12 := F32.zero,
    m34 := F32.zero, xPrev := F32.zero, yPrev := F32.zero }

/-- A free integer of R69's range 0..2^31-1. -/
def freeInt (serial field : Nat) : Nat := Config.freeHidden serial field % 2 ^ 31

/-- A free integer of R69's range 0..2^31-2. -/
def freePhase (serial field : Nat) : Nat := Config.freeHidden serial field % (2 ^ 31 - 1)

/-- A free envelope value, 0..15. -/
def freeEnvVal (serial field : Nat) : Nat := Config.freeHidden serial field % 16

/-- A free 32-bit word. -/
def freeWord (serial field : Nat) : Word := BitVec.ofNat 32 (Config.freeHidden serial field)

/-- The hidden state a VFREE leaves: every field any value of its type (R222, 93_implementation_defined.md I1; log entry
5). -/
def VoiceState.free (n : Nat) : VoiceState :=
  { cachedFreq := freeWord n 0, maxWlen := freeInt n 1,
    ch1 := { wlen := freeInt n 2, phase := freePhase n 3, sweepCtr := freeInt n 4,
             env := { ctr := freeInt n 5, val := freeEnvVal n 6 } },
    ch2 := { wlen := freeInt n 7, phase := freePhase n 8, sweepCtr := freeInt n 9,
             env := { ctr := freeInt n 10, val := freeEnvVal n 11 } },
    wlen3 := freeInt n 12, phase3 := freeWord n 13, wlen4 := freeInt n 14, phase4 := freeInt n 15,
    env4 := { ctr := freeInt n 16, val := freeEnvVal n 17 }, lfsr := BitVec.ofNat 16 (Config.freeHidden n 18),
    m12 := freeWord n 19, m34 := freeWord n 20, xPrev := freeWord n 21, yPrev := freeWord n 22 }

/-! ## Block reset (70_reset_and_hazards.md R440) -/

/-- Block reset of a running block: every piece of state as R440 says.  What lies outside the block stays: its
configuration (R9), the events the host has still to issue, and, by choice (log entry 6), the dither feeds.  Log entry 15. -/
def blockReset (s : State) : State :=
  { State.resetWith s.cfg with
    voices := s.voices.map (fun x => Voice.reset x.feed), inbox := s.inbox, freeSerial := s.freeSerial }

end Sys2Proof.Machine
end

