-- ==== Sys2Proof/Machine/Bus.lean ====
section
/-! DEFINITION. The bus operations that are not Parameter Set accesses and not commands (40_host_bus.md R180,
R183-R195). -/

namespace Sys2Proof.Machine

/-- WR.RSV (R183): a write does nothing, and is no error. -/
def execWrRsv (_a _d : Word) (s : State) : Out := done s

/-- RD.RSV (R183): a read returns 0. -/
def execRdRsv (_a : Word) (s : State) : Out := answer 0#32 s

/-- WR.GSTATUS (R185). -/
def execWrGstatus (d : Word) (s : State) : Out := done { s with busErr := busErrAfterWrite d s.busErr }

/-- RD.GSTATUS (R186): the read does not clear BUSERR. -/
def execRdGstatus (s : State) : Out := answer (gstatusWord s.busErr) s

/-- WR.GINFO (R187): ignored. -/
def execWrGinfo (_d : Word) (s : State) : Out := done s

/-- RD.GINFO (R187). -/
def execRdGinfo (s : State) : Out := answer (ginfoWord s.cfg) s

/-- RD.CMD (R189): CMD has no storage and reads 0. -/
def execRdCmd (v : VoiceId) (s : State) : Out := onVoice v .r s fun _ => answer 0#32 s

/-- RD.STATUS (R190). -/
def execRdStatus (v : VoiceId) (s : State) : Out := onVoice v .r s fun x => answer (statusWord x) s

/-- WR.STATUS (R191): ignored. -/
def execWrStatus (v : VoiceId) (_d : Word) (s : State) : Out := onVoice v .w s fun _ => done s

/-- WR.FREQ (R192): all 32 bits, no conversion, no check. -/
def execWrFreq (v : VoiceId) (d : Word) (s : State) : Out :=
  onVoice v .w s fun x => done (setVoice s v { x with freq := d })

/-- RD.FREQ (R193). -/
def execRdFreq (v : VoiceId) (s : State) : Out := onVoice v .r s fun x => answer x.freq s

/-- RD.OUT (R195): the word OutWrite last stored; a word no render has written is a fault of the model (20_memory.md
R108); a frame beyond the buffer is a bus error (R180). -/
def execRdOut (v : VoiceId) (i : BitVec 13) (c : Side) (s : State) : Out :=
  onVoice v .r s fun _ =>
    if i.toNat < s.cfg.blockFrames then
      match outRead v i.toNat c s.mem with
      | some w => answer w s
      | none => .fault (.unwrittenOutput v i c)
    else busError .r s

/-- BUSERR (R180). -/
def execBusErr (t : Txn) (s : State) : Out := busError t.dir s

end Sys2Proof.Machine
end

