-- ==== Sys2Proof/Machine/Mixer.lean ====
section
/-! DEFINITION. The mixer, the filter chain and the output stage (45_mixer_dac.md R360-R374).  Every operation is one
binary32 operation, in the order written (00_scope.md R14). -/

namespace Sys2Proof.Machine

/-- DC_COEF = fl32(0.999) (R373). -/
def dcCoef : F32 := 0x3F7FBE77#32

/-- Multiplicative dither (R363): x * (1 + d * DITHER_AMP). -/
def dither (c : Config) (d x : F32) : F32 := F32.mul x (F32.add F32.one (F32.mul d c.ditherAmp))

/-- Rescale [0, 30] to [-1, 1] (R364): x / 15 - 1. -/
def rescale (x : F32) : F32 := F32.sub (F32.div x (F32.ofNat 15)) F32.one

/-- The signed power-law distortion (R365). -/
def spow (c : Config) (x : F32) : F32 :=
  if F32.lt F32.zero x then powConfig x c.k
  else if F32.lt x F32.zero then F32.neg (powConfig (F32.neg x) c.k)
  else F32.zero

/-- The one-pole low-pass filter (R366): x + beta * (m - x); the result is also the new memory. -/
def lowPass (c : Config) (m x : F32) : F32 := F32.add x (F32.mul c.lpfBeta (F32.sub m x))

/-- The new filter memory of a pair: R362 to R366 on the sum of its two levels, with draw `d`. -/
def pairFilter (c : Config) (lA lB : Nat) (m d : F32) : F32 :=
  lowPass c m (spow c (rescale (dither c d (F32.ofNat (lA + lB)))))

/-- pairStep (R362-R367): the weighted pair value and the new filter memory. -/
def pairStep (c : Config) (lA lB : Nat) (m wgt d : F32) : F32 × F32 :=
  let m' := pairFilter c lA lB m d
  (F32.mul m' wgt, m')

/-- MV = MASTER_VOL / 16384 (10_state.md R61, 41_voice_commands.md R231). -/
def masterGain (u : Int) : F32 := F32.div (F32.ofNat u.toNat) (F32.ofNat 16384)

/-- The master mix (R370). -/
def masterMix (c : Config) (p12 p34 mv : F32) : F32 := F32.mul (F32.mul (F32.add p12 p34) c.wAll) mv

/-- The DC-blocking filter (R372): 0.999 * yPrev + mix - xPrev, left to right. -/
def dcBlock (mix xPrev yPrev : F32) : F32 := F32.sub (F32.add (F32.mul dcCoef yPrev) mix) xPrev

/-- The filter memories of the mix (10_state.md R69). -/
structure MixState where
  m12 : F32
  m34 : F32
  xPrev : F32
  yPrev : F32
deriving DecidableEq, Repr

/-- mixStep (R360) without its OutWrite: the memories after the frame.  The sample of the frame is the new yPrev.
`d12` is the frame's first draw, `d34` its second (R361, R368). -/
def mixStep (c : Config) (mv : F32) (l1 l2 l3 l4 : Nat) (d12 d34 : F32) (x : MixState) : MixState :=
  let a := pairStep c l1 l2 x.m12 c.w12 d12
  let b := pairStep c l3 l4 x.m34 c.w34 d34
  let mix := masterMix c a.1 b.1 mv
  { m12 := a.2, m34 := b.2, xPrev := mix, yPrev := dcBlock mix x.xPrev x.yPrev }

end Sys2Proof.Machine
end

