-- ==== Sys2Proof/Machine/Tone.lean ====
section
/-! DEFINITION. Tone channels 1 and 2 (42_tone_channels.md), the shared envelope (R275), and the derived quantities they
read (41_voice_commands.md R231, R232). -/

namespace Sys2Proof.Machine

/-- Which tone channel: they differ only in the extra step of R267. -/
inductive ToneCh where
  | one
  | two
deriving DecidableEq, Repr

/-- Per-render quantities of a tone channel (R231). -/
structure ToneDerived where
  d8 : Nat
  envLen : Nat
  swRate : Nat
  swAmt : Int
deriving DecidableEq, Repr

/-- D8 = 1, 2, 4, 6 for DUTY = 0, 1, 2, 3 (R52, R231). -/
def dutyEighths (duty : Int) : Nat := [1, 2, 4, 6].getD duty.toNat 0

/-- wavelength(240 div (len + 1)) (R231). -/
def envLength (c : Config) (len : Int) : Nat := wavelengthNat c (240 / (len.toNat + 1))

/-- wavelength(120 div (rate + 1)) (R231). -/
def sweepPeriod (c : Config) (rate : Int) : Nat := wavelengthNat c (120 / (rate.toNat + 1))

/-- remapSweep (R232). -/
def remapSweep (a : Int) : Int := if 0 < a then 8 - a else if a < 0 then -8 - a else 0

/-- The tone part of derive (R231). -/
def deriveTone (c : Config) (p : ToneParams) : ToneDerived :=
  { d8 := dutyEighths p.duty, envLen := envLength c p.envLen, swRate := sweepPeriod c p.sweepRate,
    swAmt := remapSweep p.sweepAmt }

/-- The volume, scaled by the envelope value over 15 when the envelope is enabled (R261, 44_noise.md R331). -/
def scaledLevel (vol envEn : Int) (e : Envelope) : Nat :=
  if envEn = 1 then vol.toNat * e.val / 15 else vol.toNat

/-- The envelope value at an envelope event (R275): down by 1, and from 0 to 15 in a loop, else held at 0. -/
def envNext (loop : Int) (val : Nat) : Nat := if val = 0 then (if loop = 1 then 15 else 0) else val - 1

/-- envelopeStep (R275), shared by channels 1, 2 and 4. -/
def envelopeStep (loop : Int) (len : Nat) (e : Envelope) : Envelope :=
  if len ≤ e.ctr + 1 then { ctr := 0, val := envNext loop e.val } else { e with ctr := e.ctr + 1 }

/-- The duty test (R262): exact integers. -/
def dutyOn (w phase d8 : Nat) : Bool := decide (8 * phase ≤ w * d8)

/-- The wavelength after a sweep event that changes it, for a non-zero remapped amount (R266-R268). -/
def sweptWlen (ch : ToneCh) (amt : Int) (w : Nat) : Nat :=
  let s := amt.natAbs
  if 0 < amt then w - w / 2 ^ s - (match ch with | .one => 1 | .two => 0) else w + w / 2 ^ s

/-- sweepStep (R265, R266) against the wavelength at the start of the frame. -/
def sweepStep (c : Config) (maxWlen : Nat) (ch : ToneCh) (p : ToneParams) (d : ToneDerived) (t : ToneState) : ToneState :=
  if d.swRate ≤ t.sweepCtr + 1 then
    { t with
      sweepCtr := 0
      wlen := if p.sweepEn = 1 ∧ inRange c maxWlen t.wlen ∧ d.swAmt ≠ 0 then sweptWlen ch d.swAmt t.wlen else t.wlen }
  else { t with sweepCtr := t.sweepCtr + 1 }

/-- The phase after a frame, for the wavelength `w2` after any sweep (R271). -/
def phaseNext (w2 phase : Nat) : Nat := if 0 < w2 then (phase + 1) % w2 else 0

/-- The level a tone channel gives in a frame, from the state at its start (R260, R263). -/
def toneOut (c : Config) (maxWlen : Nat) (p : ToneParams) (d : ToneDerived) (t : ToneState) : Nat :=
  if p.en = 1 ∧ inRange c maxWlen t.wlen ∧ dutyOn t.wlen t.phase d.d8 then scaledLevel p.vol p.envEn t.env else 0

/-- The tone channel's state after a frame: sweep, phase, envelope, in that order (R235, R260). -/
def toneNext (c : Config) (maxWlen : Nat) (ch : ToneCh) (p : ToneParams) (d : ToneDerived) (t : ToneState) : ToneState :=
  let t1 := sweepStep c maxWlen ch p d t
  { t1 with phase := phaseNext t1.wlen t1.phase, env := envelopeStep p.envLoop d.envLen t1.env }

/-- toneStep (R260): the level and the new state. -/
def toneStep (c : Config) (maxWlen : Nat) (ch : ToneCh) (p : ToneParams) (d : ToneDerived) (t : ToneState) :
    Nat × ToneState :=
  (toneOut c maxWlen p d t, toneNext c maxWlen ch p d t)

end Sys2Proof.Machine
end

