-- ==== Sys2Proof/Machine/Noise.lean ====
section
/-! DEFINITION. The noise channel 4 and its LFSR (44_noise.md R330-R339). -/

namespace Sys2Proof.Machine

/-- The fields of the noise channel (10_state.md R69). -/
structure NoiseState where
  wlen : Nat
  phase : Nat
  lfsr : BitVec 16
  env : Envelope
deriving DecidableEq, Repr

/-- lfsrStep (R334): mode 1 = short (tap bit 6), mode 0 = long (tap bit 1); feedback enters at bit 14. -/
def lfsrStep (r : BitVec 16) (mode : Int) : BitVec 16 :=
  let t := if mode = 1 then r.getLsbD 6 else r.getLsbD 1
  let fb := r.getLsbD 0 != t
  (r >>> 1) ||| (if fb then 0x4000#16 else 0#16)

/-- The level of a frame: on exactly when bit 0 of the LFSR is 0 (R330, R337); no range gate (R332). -/
def noiseOut (p : NoiseParams) (n : NoiseState) : Nat :=
  if p.en = 1 ∧ n.lfsr.getLsbD 0 = false then scaledLevel p.vol p.envEn n.env else 0

/-- The noise channel's state after a frame: the LFSR clock, then the envelope (R330, R333, R336). -/
def noiseNext (p : NoiseParams) (envLen : Nat) (n : NoiseState) : NoiseState :=
  { wlen := n.wlen
    phase := if n.wlen ≤ n.phase + 1 then 0 else n.phase + 1
    lfsr := if n.wlen ≤ n.phase + 1 then lfsrStep n.lfsr p.noiseMode else n.lfsr
    env := envelopeStep p.envLoop envLen n.env }

/-- noiseStep (R330): the level and the new state. -/
def noiseStep (p : NoiseParams) (envLen : Nat) (n : NoiseState) : Nat × NoiseState :=
  (noiseOut p n, noiseNext p envLen n)

end Sys2Proof.Machine
end

