-- ==== Sys2Proof/Machine/Triangle.lean ====
section
/-! DEFINITION. The triangle channel 3 (43_triangle.md R310-R315). -/

namespace Sys2Proof.Machine

/-- Wrap before use (R311). -/
def triWrap (w : Nat) (phase : BitVec 32) : BitVec 32 := if 0 < w then BitVec.ofNat 32 (phase.toNat % w) else phase

/-- The level for a wrapped phase (R312). -/
def triLevel (c : Config) (maxWlen : Nat) (p : TriParams) (w : Nat) (phase : BitVec 32) : Nat :=
  if p.en = 1 ∧ inRange c maxWlen w then c.triAt (phase.toNat * 32 / w) * p.vol.toNat / 15 else 0

/-- triStep (R310): the level and the new V.phase3, which advances modulo 2^32 (R313). -/
def triStep (c : Config) (maxWlen : Nat) (p : TriParams) (w : Nat) (phase : BitVec 32) : Nat × BitVec 32 :=
  let ph := triWrap w phase
  (triLevel c maxWlen p w ph, ph + 1#32)

end Sys2Proof.Machine
end

