-- ==== Sys2Proof/Machine/Render.lean ====
section
/-! DEFINITION. Rendering: pitch detection, the noise wavelength, the derived quantities and the frame loop
(41_voice_commands.md R224-R239). -/

namespace Sys2Proof.Machine

/-- The quantities derived once in a render (R231). -/
structure Derived where
  t1 : ToneDerived
  t2 : ToneDerived
  envLen4 : Nat
  mv : F32
deriving DecidableEq, Repr

/-- derive (R231). -/
def derive (c : Config) (p : Params) : Derived :=
  { t1 := deriveTone c p.ch1, t2 := deriveTone c p.ch2, envLen4 := envLength c p.ch4.envLen,
    mv := masterGain p.masterVol }

/-- The wavelength of a detuned frequency: wavelength(fl32(f * MULT[detune])) (R227). -/
def detunedWlen (c : Config) (f : F32) (detune : Int) : Nat := wavelength c (F32.mul f (c.multAt detune))

/-- Step 1, pitchUpdate (R227): frequencies are compared as 32-bit words, no phase is reset. -/
def pitchUpdate (c : Config) (p : Params) (f : Word) (h : VoiceState) : VoiceState :=
  if f ≠ h.cachedFreq then
    { h with
      ch1 := { h.ch1 with wlen := detunedWlen c f p.ch1.detune }
      ch2 := { h.ch2 with wlen := detunedWlen c f p.ch2.detune }
      wlen3 := detunedWlen c f p.ch3.detune
      cachedFreq := f }
  else h

/-- Channel 4's wavelength (R229). -/
def noiseWlen (c : Config) (p : NoiseParams) (f : Word) : Nat :=
  if p.noiseFreqMode = 1 then wavelength c f else wavelength c (c.noiseFreqAt (15 - p.noiseFreq).toNat)

/-- Step 2, noiseWavelength (R229), on every render. -/
def noiseWavelength (c : Config) (p : Params) (f : Word) (h : VoiceState) : VoiceState :=
  { h with wlen4 := noiseWlen c p.ch4 f }

/-- The noise fields of a voice. -/
def VoiceState.noise (h : VoiceState) : NoiseState := { wlen := h.wlen4, phase := h.phase4, lfsr := h.lfsr, env := h.env4 }

/-- The mix memories of a voice. -/
def VoiceState.mix (h : VoiceState) : MixState := { m12 := h.m12, m34 := h.m34, xPrev := h.xPrev, yPrev := h.yPrev }

/-- frame (R233) without its OutWrite: the hidden state after one frame, for the snapshot `p`, the derived quantities
`d` and the frame's two draws.  The frame's sample is the new V.yPrev (45_mixer_dac.md R372, R374). -/
def frame (c : Config) (p : Params) (d : Derived) (d12 d34 : F32) (h : VoiceState) : VoiceState :=
  let r1 := toneStep c h.maxWlen .one p.ch1 d.t1 h.ch1
  let r2 := toneStep c h.maxWlen .two p.ch2 d.t2 h.ch2
  let r3 := triStep c h.maxWlen p.ch3 h.wlen3 h.phase3
  let r4 := noiseStep p.ch4 d.envLen4 h.noise
  let x := mixStep c d.mv r1.1 r2.1 r3.1 r4.1 d12 d34 h.mix
  { h with
    ch1 := r1.2
    ch2 := r2.2
    phase3 := r3.2
    wlen4 := r4.2.wlen
    phase4 := r4.2.phase
    lfsr := r4.2.lfsr
    env4 := r4.2.env
    m12 := x.m12
    m34 := x.m34
    xPrev := x.xPrev
    yPrev := x.yPrev }

/-- What the frame loop carries: the hidden state, the dither feed and the output memory. -/
structure RenderState where
  hid : VoiceState
  feed : DitherFeed
  mem : Mem
deriving DecidableEq, Repr

/-- Frame `i` of a render of voice `v`: two draws (45_mixer_dac.md R361), the frame, its two output words. -/
def renderFrame (c : Config) (p : Params) (d : Derived) (v : VoiceId) (i : Nat) (r : RenderState) : RenderState :=
  let x := r.feed.draw v
  let y := x.2.draw v
  let h := frame c p d x.1 y.1 r.hid
  { hid := h, feed := y.2, mem := outFrame v i h.yPrev r.mem }

/-- Frames `i`, `i + 1`, ..., `i + n - 1`, in increasing order (R233). -/
def renderFrames (c : Config) (p : Params) (d : Derived) (v : VoiceId) : (n i : Nat) → RenderState → RenderState
  | 0, _, r => r
  | n + 1, i, r => renderFrames c p d v n (i + 1) (renderFrame c p d v i r)

/-- Steps 1 and 2 of a render, before its first frame (R224). -/
def renderStart (c : Config) (p : Params) (f : Word) (h : VoiceState) : VoiceState :=
  noiseWavelength c p f (pitchUpdate c p f h)

/-- A render of `n` frames of slot `v`, holding `x`, with the Parameter Set's snapshot `p` (R224, R230). -/
def render (c : Config) (p : Params) (v : VoiceId) (n : Nat) (x : Voice) (m : Mem) : RenderState :=
  renderFrames c p (derive c p) v n 0 { hid := renderStart c p x.freq x.hid, feed := x.feed, mem := m }

end Sys2Proof.Machine
end

