-- ==== Sys2Proof/Machine/Commands.lean ====
section
/-! DEFINITION. The commands written to CMD(v): VINIT, VFREE, VRENDER, CMD.ILLEGAL (41_voice_commands.md R220, R222,
R224; 60_exceptions.md R402). -/

namespace Sys2Proof.Machine

/-- VINIT (R220): create voice `v`.  FREQ, the output buffer and the Parameter Set stay. -/
def execVinit (v : VoiceId) (s : State) : Out :=
  onVoice v .w s fun x =>
    done (setVoice s v { x with alive := true, err := .none, hid := VoiceState.init s.cfg })

/-- VFREE (R222): destroy voice `v`; its hidden state becomes unspecified.  On a voice that is not alive, nothing. -/
def execVfree (v : VoiceId) (s : State) : Out :=
  onVoice v .w s fun x =>
    if x.alive then
      done { setVoice s v { x with alive := false, hid := VoiceState.free s.freeSerial } with
             freeSerial := s.freeSerial + 1 }
    else done s

/-- VRENDER(N) (R224): the checks in the order of 60_exceptions.md R403, then the render. -/
def execVrender (v : VoiceId) (n : BitVec 16) (s : State) : Out :=
  onVoice v .w s fun x =>
    if x.alive = false then raiseError .voiceDead v s
    else if s.cfg.blockFrames < frameCount n then raiseError .badCount v s
    else if frameCount n = 0 then done s
    else if validFreq x.freq = false then raiseError .badFreq v s
    else
      let r := render s.cfg s.params v (frameCount n) x s.mem
      done { setVoice s v { x with hid := r.hid, feed := r.feed } with mem := r.mem }

/-- CMD.ILLEGAL (R402): records ILLEGAL_CMD, whether or not the voice is alive. -/
def execCmdIllegal (v : VoiceId) (_w : Word) (s : State) : Out := onVoice v .w s fun _ => raiseError .illegalCmd v s

end Sys2Proof.Machine
end

