-- ==== Sys2Proof/Machine/ParamRead.lean ====
section
/-! DEFINITION. RD.NAME: the 33 Parameter Set register reads (40_host_bus.md R184). -/

namespace Sys2Proof.Machine

/-- RD.NAME: the stored value as a 32-bit two's-complement word. -/
def readParam (p : Param) (s : State) : Out := answer (wordOfInt (s.params.get p)) s

def execRdCh1En (s : State) : Out := readParam .ch1En s
def execRdCh1Detune (s : State) : Out := readParam .ch1Detune s
def execRdCh1Vol (s : State) : Out := readParam .ch1Vol s
def execRdCh1EnvEn (s : State) : Out := readParam .ch1EnvEn s
def execRdCh1EnvLoop (s : State) : Out := readParam .ch1EnvLoop s
def execRdCh1EnvLen (s : State) : Out := readParam .ch1EnvLen s
def execRdCh1Duty (s : State) : Out := readParam .ch1Duty s
def execRdCh1SweepEn (s : State) : Out := readParam .ch1SweepEn s
def execRdCh1SweepAmt (s : State) : Out := readParam .ch1SweepAmt s
def execRdCh1SweepRate (s : State) : Out := readParam .ch1SweepRate s
def execRdCh2En (s : State) : Out := readParam .ch2En s
def execRdCh2Detune (s : State) : Out := readParam .ch2Detune s
def execRdCh2Vol (s : State) : Out := readParam .ch2Vol s
def execRdCh2EnvEn (s : State) : Out := readParam .ch2EnvEn s
def execRdCh2EnvLoop (s : State) : Out := readParam .ch2EnvLoop s
def execRdCh2EnvLen (s : State) : Out := readParam .ch2EnvLen s
def execRdCh2Duty (s : State) : Out := readParam .ch2Duty s
def execRdCh2SweepEn (s : State) : Out := readParam .ch2SweepEn s
def execRdCh2SweepAmt (s : State) : Out := readParam .ch2SweepAmt s
def execRdCh2SweepRate (s : State) : Out := readParam .ch2SweepRate s
def execRdCh3En (s : State) : Out := readParam .ch3En s
def execRdCh3Detune (s : State) : Out := readParam .ch3Detune s
def execRdCh3Vol (s : State) : Out := readParam .ch3Vol s
def execRdCh4En (s : State) : Out := readParam .ch4En s
def execRdCh4Vol (s : State) : Out := readParam .ch4Vol s
def execRdCh4EnvEn (s : State) : Out := readParam .ch4EnvEn s
def execRdCh4EnvLoop (s : State) : Out := readParam .ch4EnvLoop s
def execRdCh4EnvLen (s : State) : Out := readParam .ch4EnvLen s
def execRdCh4NoiseMode (s : State) : Out := readParam .ch4NoiseMode s
def execRdCh4NoiseFreqMode (s : State) : Out := readParam .ch4NoiseFreqMode s
def execRdCh4NoiseFreq (s : State) : Out := readParam .ch4NoiseFreq s
def execRdMasterVol (s : State) : Out := readParam .masterVol s
def execRdVibrato (s : State) : Out := readParam .vibrato s

end Sys2Proof.Machine
end

