-- ==== Sys2Proof/Machine/ParamWrite.lean ====
section
/-! DEFINITION. WR.NAME: the 33 Parameter Set register writes (40_host_bus.md R182). -/

namespace Sys2Proof.Machine

/-- WR.NAME: P.NAME <- clamp(sext_32(data), lo, hi). -/
def writeParam (p : Param) (d : Word) (s : State) : Out := done { s with params := s.params.set p (paramStored p d) }

def execWrCh1En (d : Word) (s : State) : Out := writeParam .ch1En d s
def execWrCh1Detune (d : Word) (s : State) : Out := writeParam .ch1Detune d s
def execWrCh1Vol (d : Word) (s : State) : Out := writeParam .ch1Vol d s
def execWrCh1EnvEn (d : Word) (s : State) : Out := writeParam .ch1EnvEn d s
def execWrCh1EnvLoop (d : Word) (s : State) : Out := writeParam .ch1EnvLoop d s
def execWrCh1EnvLen (d : Word) (s : State) : Out := writeParam .ch1EnvLen d s
def execWrCh1Duty (d : Word) (s : State) : Out := writeParam .ch1Duty d s
def execWrCh1SweepEn (d : Word) (s : State) : Out := writeParam .ch1SweepEn d s
def execWrCh1SweepAmt (d : Word) (s : State) : Out := writeParam .ch1SweepAmt d s
def execWrCh1SweepRate (d : Word) (s : State) : Out := writeParam .ch1SweepRate d s
def execWrCh2En (d : Word) (s : State) : Out := writeParam .ch2En d s
def execWrCh2Detune (d : Word) (s : State) : Out := writeParam .ch2Detune d s
def execWrCh2Vol (d : Word) (s : State) : Out := writeParam .ch2Vol d s
def execWrCh2EnvEn (d : Word) (s : State) : Out := writeParam .ch2EnvEn d s
def execWrCh2EnvLoop (d : Word) (s : State) : Out := writeParam .ch2EnvLoop d s
def execWrCh2EnvLen (d : Word) (s : State) : Out := writeParam .ch2EnvLen d s
def execWrCh2Duty (d : Word) (s : State) : Out := writeParam .ch2Duty d s
def execWrCh2SweepEn (d : Word) (s : State) : Out := writeParam .ch2SweepEn d s
def execWrCh2SweepAmt (d : Word) (s : State) : Out := writeParam .ch2SweepAmt d s
def execWrCh2SweepRate (d : Word) (s : State) : Out := writeParam .ch2SweepRate d s
def execWrCh3En (d : Word) (s : State) : Out := writeParam .ch3En d s
def execWrCh3Detune (d : Word) (s : State) : Out := writeParam .ch3Detune d s
def execWrCh3Vol (d : Word) (s : State) : Out := writeParam .ch3Vol d s
def execWrCh4En (d : Word) (s : State) : Out := writeParam .ch4En d s
def execWrCh4Vol (d : Word) (s : State) : Out := writeParam .ch4Vol d s
def execWrCh4EnvEn (d : Word) (s : State) : Out := writeParam .ch4EnvEn d s
def execWrCh4EnvLoop (d : Word) (s : State) : Out := writeParam .ch4EnvLoop d s
def execWrCh4EnvLen (d : Word) (s : State) : Out := writeParam .ch4EnvLen d s
def execWrCh4NoiseMode (d : Word) (s : State) : Out := writeParam .ch4NoiseMode d s
def execWrCh4NoiseFreqMode (d : Word) (s : State) : Out := writeParam .ch4NoiseFreqMode d s
def execWrCh4NoiseFreq (d : Word) (s : State) : Out := writeParam .ch4NoiseFreq d s
def execWrMasterVol (d : Word) (s : State) : Out := writeParam .masterVol d s
def execWrVibrato (d : Word) (s : State) : Out := writeParam .vibrato d s

end Sys2Proof.Machine
end

