-- ==== Sys2Proof/Machine/Dispatch.lean ====
section
/-! DEFINITION. The dispatch: one arm for each operation. -/

namespace Sys2Proof.Machine

def exec (i : Instr) (s : State) : Host.Outcome State Fault Refusal :=
  match i with
  | .wrCh1En d => Sys2Proof.Machine.execWrCh1En d s
  | .wrCh1Detune d => Sys2Proof.Machine.execWrCh1Detune d s
  | .wrCh1Vol d => Sys2Proof.Machine.execWrCh1Vol d s
  | .wrCh1EnvEn d => Sys2Proof.Machine.execWrCh1EnvEn d s
  | .wrCh1EnvLoop d => Sys2Proof.Machine.execWrCh1EnvLoop d s
  | .wrCh1EnvLen d => Sys2Proof.Machine.execWrCh1EnvLen d s
  | .wrCh1Duty d => Sys2Proof.Machine.execWrCh1Duty d s
  | .wrCh1SweepEn d => Sys2Proof.Machine.execWrCh1SweepEn d s
  | .wrCh1SweepAmt d => Sys2Proof.Machine.execWrCh1SweepAmt d s
  | .wrCh1SweepRate d => Sys2Proof.Machine.execWrCh1SweepRate d s
  | .wrCh2En d => Sys2Proof.Machine.execWrCh2En d s
  | .wrCh2Detune d => Sys2Proof.Machine.execWrCh2Detune d s
  | .wrCh2Vol d => Sys2Proof.Machine.execWrCh2Vol d s
  | .wrCh2EnvEn d => Sys2Proof.Machine.execWrCh2EnvEn d s
  | .wrCh2EnvLoop d => Sys2Proof.Machine.execWrCh2EnvLoop d s
  | .wrCh2EnvLen d => Sys2Proof.Machine.execWrCh2EnvLen d s
  | .wrCh2Duty d => Sys2Proof.Machine.execWrCh2Duty d s
  | .wrCh2SweepEn d => Sys2Proof.Machine.execWrCh2SweepEn d s
  | .wrCh2SweepAmt d => Sys2Proof.Machine.execWrCh2SweepAmt d s
  | .wrCh2SweepRate d => Sys2Proof.Machine.execWrCh2SweepRate d s
  | .wrCh3En d => Sys2Proof.Machine.execWrCh3En d s
  | .wrCh3Detune d => Sys2Proof.Machine.execWrCh3Detune d s
  | .wrCh3Vol d => Sys2Proof.Machine.execWrCh3Vol d s
  | .wrCh4En d => Sys2Proof.Machine.execWrCh4En d s
  | .wrCh4Vol d => Sys2Proof.Machine.execWrCh4Vol d s
  | .wrCh4EnvEn d => Sys2Proof.Machine.execWrCh4EnvEn d s
  | .wrCh4EnvLoop d => Sys2Proof.Machine.execWrCh4EnvLoop d s
  | .wrCh4EnvLen d => Sys2Proof.Machine.execWrCh4EnvLen d s
  | .wrCh4NoiseMode d => Sys2Proof.Machine.execWrCh4NoiseMode d s
  | .wrCh4NoiseFreqMode d => Sys2Proof.Machine.execWrCh4NoiseFreqMode d s
  | .wrCh4NoiseFreq d => Sys2Proof.Machine.execWrCh4NoiseFreq d s
  | .wrMasterVol d => Sys2Proof.Machine.execWrMasterVol d s
  | .wrVibrato d => Sys2Proof.Machine.execWrVibrato d s
  | .rdCh1En => Sys2Proof.Machine.execRdCh1En s
  | .rdCh1Detune => Sys2Proof.Machine.execRdCh1Detune s
  | .rdCh1Vol => Sys2Proof.Machine.execRdCh1Vol s
  | .rdCh1EnvEn => Sys2Proof.Machine.execRdCh1EnvEn s
  | .rdCh1EnvLoop => Sys2Proof.Machine.execRdCh1EnvLoop s
  | .rdCh1EnvLen => Sys2Proof.Machine.execRdCh1EnvLen s
  | .rdCh1Duty => Sys2Proof.Machine.execRdCh1Duty s
  | .rdCh1SweepEn => Sys2Proof.Machine.execRdCh1SweepEn s
  | .rdCh1SweepAmt => Sys2Proof.Machine.execRdCh1SweepAmt s
  | .rdCh1SweepRate => Sys2Proof.Machine.execRdCh1SweepRate s
  | .rdCh2En => Sys2Proof.Machine.execRdCh2En s
  | .rdCh2Detune => Sys2Proof.Machine.execRdCh2Detune s
  | .rdCh2Vol => Sys2Proof.Machine.execRdCh2Vol s
  | .rdCh2EnvEn => Sys2Proof.Machine.execRdCh2EnvEn s
  | .rdCh2EnvLoop => Sys2Proof.Machine.execRdCh2EnvLoop s
  | .rdCh2EnvLen => Sys2Proof.Machine.execRdCh2EnvLen s
  | .rdCh2Duty => Sys2Proof.Machine.execRdCh2Duty s
  | .rdCh2SweepEn => Sys2Proof.Machine.execRdCh2SweepEn s
  | .rdCh2SweepAmt => Sys2Proof.Machine.execRdCh2SweepAmt s
  | .rdCh2SweepRate => Sys2Proof.Machine.execRdCh2SweepRate s
  | .rdCh3En => Sys2Proof.Machine.execRdCh3En s
  | .rdCh3Detune => Sys2Proof.Machine.execRdCh3Detune s
  | .rdCh3Vol => Sys2Proof.Machine.execRdCh3Vol s
  | .rdCh4En => Sys2Proof.Machine.execRdCh4En s
  | .rdCh4Vol => Sys2Proof.Machine.execRdCh4Vol s
  | .rdCh4EnvEn => Sys2Proof.Machine.execRdCh4EnvEn s
  | .rdCh4EnvLoop => Sys2Proof.Machine.execRdCh4EnvLoop s
  | .rdCh4EnvLen => Sys2Proof.Machine.execRdCh4EnvLen s
  | .rdCh4NoiseMode => Sys2Proof.Machine.execRdCh4NoiseMode s
  | .rdCh4NoiseFreqMode => Sys2Proof.Machine.execRdCh4NoiseFreqMode s
  | .rdCh4NoiseFreq => Sys2Proof.Machine.execRdCh4NoiseFreq s
  | .rdMasterVol => Sys2Proof.Machine.execRdMasterVol s
  | .rdVibrato => Sys2Proof.Machine.execRdVibrato s
  | .wrRsv a d => Sys2Proof.Machine.execWrRsv a d s
  | .rdRsv a => Sys2Proof.Machine.execRdRsv a s
  | .wrGstatus d => Sys2Proof.Machine.execWrGstatus d s
  | .rdGstatus => Sys2Proof.Machine.execRdGstatus s
  | .wrGinfo d => Sys2Proof.Machine.execWrGinfo d s
  | .rdGinfo => Sys2Proof.Machine.execRdGinfo s
  | .vinit v => Sys2Proof.Machine.execVinit v s
  | .vrender v n => Sys2Proof.Machine.execVrender v n s
  | .vfree v => Sys2Proof.Machine.execVfree v s
  | .cmdIllegal v w => Sys2Proof.Machine.execCmdIllegal v w s
  | .rdCmd v => Sys2Proof.Machine.execRdCmd v s
  | .rdStatus v => Sys2Proof.Machine.execRdStatus v s
  | .wrStatus v d => Sys2Proof.Machine.execWrStatus v d s
  | .wrFreq v d => Sys2Proof.Machine.execWrFreq v d s
  | .rdFreq v => Sys2Proof.Machine.execRdFreq v s
  | .rdOut v j c => Sys2Proof.Machine.execRdOut v j c s
  | .busErr t => Sys2Proof.Machine.execBusErr t s

end Sys2Proof.Machine
end

