-- ==== Sys2Proof/Machine/Step.lean ====
section
/-! DEFINITION. One step: the block accepts the host's next event (20_memory.md R100, R113). -/

namespace Sys2Proof.Machine

/-- One step.  A configuration that breaks R8 or R10 is refused (R10).  With no event pending the block is idle and
nothing changes (60_exceptions.md R434). -/
def step (s : State) : Host.Outcome State Fault Refusal :=
  match s.inbox with
  | [] => guardConfig s (.next s)
  | .txn t :: rest => guardConfig s (exec (decode s.cfg t) { s with inbox := rest })
  | .reset :: rest => guardConfig s (done (blockReset { s with inbox := rest }))

/-- `s` with the transaction of a table word as the next event the step accepts (log entry 3). -/
def State.withFetchWord (s : State) (nbits w : Nat) : State := { s with inbox := .txn (tableTxn nbits w) :: s.inbox }

end Sys2Proof.Machine
end

