-- ==== Sys2Proof/Safety.lean ====
section
/-! DEFINITION. The terms claims are stated in: the invariants of the block and what a safe run is. -/

namespace Sys2Proof.Machine

/-- Every register holds a legal value (10_state.md R44). -/
def Params.legal (ps : Params) : Prop := ∀ p : Param, Param.lo p ≤ ps.get p ∧ ps.get p ≤ Param.hi p

/-- R71 of one voice's hidden state: (a) envelope values 0..15, (b) the LFSR is non-zero with bit 15 = 0. -/
def VoiceState.inv (h : VoiceState) : Prop :=
  h.ch1.env.val ≤ 15 ∧ h.ch2.env.val ≤ 15 ∧ h.env4.val ≤ 15 ∧ h.lfsr ≠ 0 ∧ h.lfsr.getLsbD 15 = false

/-- R70 of one voice's hidden state: every counter below 2^31, a wavelength at most the greatest that pitch or a sweep gives,
and a tone phase below that bound.  V.phase3 wraps modulo 2^32 and needs none. -/
def VoiceState.bounded (c : Config) (h : VoiceState) : Prop :=
  h.maxWlen = c.maxWlen ∧
  h.ch1.wlen ≤ max (2 ^ 31 - 1) (h.maxWlen + h.maxWlen / 2) ∧ h.ch2.wlen ≤ max (2 ^ 31 - 1) (h.maxWlen + h.maxWlen / 2) ∧
  h.ch1.phase < max (2 ^ 31 - 1) (h.maxWlen + h.maxWlen / 2) ∧ h.ch2.phase < max (2 ^ 31 - 1) (h.maxWlen + h.maxWlen / 2) ∧
  h.wlen3 < 2 ^ 31 ∧ h.wlen4 < 2 ^ 31 ∧
  h.ch1.sweepCtr < 2 ^ 31 ∧ h.ch2.sweepCtr < 2 ^ 31 ∧
  h.ch1.env.ctr < 2 ^ 31 ∧ h.ch2.env.ctr < 2 ^ 31 ∧ h.env4.ctr < 2 ^ 31 ∧ h.phase4 < 2 ^ 31

/-- Every listed byte of memory lies in a present voice's output buffer (20_memory.md R102, R107). -/
def Mem.inBuffers (c : Config) (m : Mem) : Prop := ∀ cell ∈ m, bufferAddr c cell.1 = true

/-- The block's invariant: legal registers, canonical memory inside the buffers, R71 and R70 for every alive voice. -/
structure State.Inv (s : State) : Prop where
  cfgOk : s.cfg.wf = true
  regs : s.params.legal
  memWf : s.mem.wf = true
  memIn : s.mem.inBuffers s.cfg
  voice : ∀ v : VoiceId, (getVoice s v).alive = true → (getVoice s v).hid.inv ∧ (getVoice s v).hid.bounded s.cfg

/-- A step is safe when it gives a next state: the block never traps (60_exceptions.md R400). -/
def safeStep (s : State) : Prop := ∃ s', step s = .next s'

end Sys2Proof.Machine
end

