-- ==== Sys2Proof/Certificates/Slice0/Obligations.lean ====
section
/-! DEFINITION. The statements for the provers.  A statement says the model's own choice where its docstring names a log
entry; everything else is a rule of the spec. -/

open Sys2Proof Sys2Proof.Machine

/-! ## Terms the statements share -/

namespace Sys2Proof.Machine

/-- `t` is `s` but for voice slot `v` and the word returned. -/
structure State.SameButVoice (v : VoiceId) (s t : State) : Prop where
  cfg : t.cfg = s.cfg
  params : t.params = s.params
  busErr : t.busErr = s.busErr
  mem : t.mem = s.mem
  inbox : t.inbox = s.inbox
  voices : ∀ u : VoiceId, u ≠ v → getVoice t u = getVoice s u

/-- A row of the register map: offset, least and greatest legal value, reset value. -/
def regRow (p : Param) (offset : Nat) (lo hi reset : Int) : Prop :=
  p.offset = offset ∧ Param.lo p = lo ∧ Param.hi p = hi ∧ Params.reset.get p = reset

/-- The voice an operation acts on, if it acts on one. -/
def Instr.voice? : Instr → Option VoiceId
  | .vinit v => some v
  | .vrender v _ => some v
  | .vfree v => some v
  | .cmdIllegal v _ => some v
  | .rdCmd v => some v
  | .rdStatus v => some v
  | .wrStatus v _ => some v
  | .wrFreq v _ => some v
  | .rdFreq v => some v
  | .rdOut v _ _ => some v
  | _ => none

/-- The operations on a voice, for one voice number. -/
def voiceOps (v : VoiceId) (n : BitVec 16) (w d : Word) (i : BitVec 13) (c : Side) : List Instr :=
  [.vinit v, .vrender v n, .vfree v, .cmdIllegal v w, .rdCmd v, .rdStatus v, .wrStatus v d, .wrFreq v d, .rdFreq v,
    .rdOut v i c]

/-- A VRENDER(n) of voice `v` passes every check of 60_exceptions.md R403 and renders. -/
structure State.Renders (s : State) (v : VoiceId) (n : BitVec 16) : Prop where
  cfgOk : s.cfg.wf = true
  memWf : s.mem.wf = true
  present : v.present s.cfg = true
  alive : (getVoice s v).alive = true
  pos : 1 ≤ n.toNat
  fits : n.toNat ≤ s.cfg.blockFrames
  freq : validFreq (getVoice s v).freq = true

/-- What the frame loop of a render of voice `v` has made of the voice after `k` frames. -/
def afterFrames (s : State) (v : VoiceId) (k : Nat) : RenderState :=
  renderFrames s.cfg s.params (derive s.cfg s.params) v k 0
    { hid := renderStart s.cfg s.params (getVoice s v).freq (getVoice s v).hid, feed := (getVoice s v).feed, mem := s.mem }

/-- The derived quantities of one tone channel, from its registers (41_voice_commands.md R231, R232). -/
structure ToneParams.Derives (c : Config) (p : ToneParams) (d : ToneDerived) : Prop where
  duty0 : p.duty = 0 → d.d8 = 1
  duty1 : p.duty = 1 → d.d8 = 2
  duty2 : p.duty = 2 → d.d8 = 4
  duty3 : p.duty = 3 → d.d8 = 6
  envLen : d.envLen = wavelength c (F32.ofNat (240 / (p.envLen.toNat + 1)))
  swRate : d.swRate = wavelength c (F32.ofNat (120 / (p.sweepRate.toNat + 1)))
  rise : 0 < p.sweepAmt → d.swAmt = 8 - p.sweepAmt
  fall : p.sweepAmt < 0 → d.swAmt = -8 - p.sweepAmt
  still : p.sweepAmt = 0 → d.swAmt = 0

/-- Two states that differ in nothing the host can read: only in hidden voice state and dither feeds. -/
structure State.SameToHost (s t : State) : Prop where
  cfg : t.cfg = s.cfg
  params : t.params = s.params
  busErr : t.busErr = s.busErr
  mem : t.mem = s.mem
  reply : t.reply = s.reply
  voices : ∀ u : VoiceId, (getVoice t u).alive = (getVoice s u).alive ∧ (getVoice t u).err = (getVoice s u).err ∧
    (getVoice t u).freq = (getVoice s u).freq

end Sys2Proof.Machine

/-! ## Encoding and decoding -/

/-- Transactions written out from the address map and the command forms decode to the operations they stand for
(30_encoding.md R145, R146): a sanity statement over one word of each family. -/
def Obligations.WrittenWordsDecode : Prop :=
  decode Config.tc (.write 0x00000008#32 0x00000014#32) = .wrCh1Vol 0x00000014#32 ∧
  decode Config.tc (.write 0x00000060#32 0xFFFFFFF0#32) = .wrCh2SweepAmt 0xFFFFFFF0#32 ∧
  decode Config.tc (.read 0x000000E0#32) = .rdMasterVol ∧
  decode Config.tc (.write 0x00000028#32 0x00000007#32) = .wrRsv 0x00000028#32 0x00000007#32 ∧
  decode Config.tc (.read 0x0000011C#32) = .rdRsv 0x0000011C#32 ∧
  decode Config.tc (.read 0x000000F0#32) = .rdGstatus ∧
  decode Config.tc (.read 0x000000F4#32) = .rdGinfo ∧
  decode Config.tc (.write 0x00000110#32 0x01000000#32) = .vinit 1 ∧
  decode Config.tc (.write 0x00000100#32 0x02000040#32) = .vrender 0 64#16 ∧
  decode Config.tc (.write 0x00000100#32 0x03000000#32) = .vfree 0 ∧
  decode Config.tc (.write 0x00000100#32 0x02010000#32) = .cmdIllegal 0 0x02010000#32 ∧
  decode Config.tc (.read 0x00000114#32) = .rdStatus 1 ∧
  decode Config.tc (.write 0x00000108#32 0x43DC0000#32) = .wrFreq 0 0x43DC0000#32 ∧
  decode Config.tc (.read 0x0002000C#32) = .rdOut 1 1#13 .right ∧
  decode Config.tc (.write 0x00010000#32 0x00000000#32) = .busErr (.write 0x00010000#32 0x00000000#32) ∧
  decode Config.tc (.read 0x00000120#32) = .busErr (.read 0x00000120#32)

/-- The register map (10_state.md R43): offset, legal values and reset value of each of the 33 registers. -/
def Obligations.RegisterMap : Prop :=
  regRow .ch1En 0x000 0 1 0 ∧
  regRow .ch1Detune 0x004 (-24) 24 0 ∧
  regRow .ch1Vol 0x008 0 15 0 ∧
  regRow .ch1EnvEn 0x00C 0 1 0 ∧
  regRow .ch1EnvLoop 0x010 0 1 0 ∧
  regRow .ch1EnvLen 0x014 0 15 0 ∧
  regRow .ch1Duty 0x018 0 3 0 ∧
  regRow .ch1SweepEn 0x01C 0 1 0 ∧
  regRow .ch1SweepAmt 0x020 (-7) 7 0 ∧
  regRow .ch1SweepRate 0x024 0 7 0 ∧
  regRow .ch2En 0x040 0 1 0 ∧
  regRow .ch2Detune 0x044 (-24) 24 0 ∧
  regRow .ch2Vol 0x048 0 15 0 ∧
  regRow .ch2EnvEn 0x04C 0 1 0 ∧
  regRow .ch2EnvLoop 0x050 0 1 0 ∧
  regRow .ch2EnvLen 0x054 0 15 0 ∧
  regRow .ch2Duty 0x058 0 3 0 ∧
  regRow .ch2SweepEn 0x05C 0 1 0 ∧
  regRow .ch2SweepAmt 0x060 (-7) 7 0 ∧
  regRow .ch2SweepRate 0x064 0 7 0 ∧
  regRow .ch3En 0x080 0 1 0 ∧
  regRow .ch3Detune 0x084 (-24) 24 0 ∧
  regRow .ch3Vol 0x088 0 15 0 ∧
  regRow .ch4En 0x0C0 0 1 0 ∧
  regRow .ch4Vol 0x0C4 0 15 0 ∧
  regRow .ch4EnvEn 0x0C8 0 1 0 ∧
  regRow .ch4EnvLoop 0x0CC 0 1 0 ∧
  regRow .ch4EnvLen 0x0D0 0 15 0 ∧
  regRow .ch4NoiseMode 0x0D4 0 1 0 ∧
  regRow .ch4NoiseFreqMode 0x0D8 0 1 0 ∧
  regRow .ch4NoiseFreq 0x0DC 0 15 0 ∧
  regRow .masterVol 0x0E0 0 32768 16384 ∧
  regRow .vibrato 0x0E4 0 15 0

/-- Encoding and then decoding gives the operation back, for every well-formed operation with every operand. -/
def Obligations.EncodeThenDecode : Prop :=
  ∀ (c : Config) (i : Instr), i.wf c = true → decode c (encode i) = i

/-- Decoding and then encoding gives the transaction back: the decoder drops no bit of an address or a data word. -/
def Obligations.DecodeThenEncode : Prop :=
  ∀ (c : Config) (t : Txn), c.wf = true → encode (decode c t) = t

/-- Every transaction decodes to an operation whose operands lie where its row lets them lie: the map is complete
(20_memory.md R103). -/
def Obligations.DecodeGivesWellFormed : Prop :=
  ∀ (c : Config) (t : Txn), c.wf = true → (decode c t).wf c = true

/-- The command decoder in the match and mask form of 30_encoding.md R143. -/
def Obligations.CommandWordForms : Prop :=
  ∀ w : Word,
    (decodeCmd w = .vinit ↔ w &&& 0xFFFFFFFF#32 = 0x01000000#32) ∧
    (∀ n : BitVec 16, decodeCmd w = .vrender n ↔ w &&& 0xFFFF0000#32 = 0x02000000#32 ∧ n = w.extractLsb' 0 16) ∧
    (decodeCmd w = .vfree ↔ w &&& 0xFFFFFFFF#32 = 0x03000000#32) ∧
    (decodeCmd w = .illegal ↔
      w &&& 0xFFFFFFFF#32 ≠ 0x01000000#32 ∧ w &&& 0xFFFF0000#32 ≠ 0x02000000#32 ∧ w &&& 0xFFFFFFFF#32 ≠ 0x03000000#32)

/-! ## The step -/

/-- A step runs the decoded operation on the state with that event taken from the inbox, the model's host side (log entry
2); and for the transaction that
encodes a well-formed operation, that operation. -/
def Obligations.StepRunsDecoded : Prop :=
  (∀ (s : State) (t : Txn) (rest : List Event), s.cfg.wf = true → s.inbox = .txn t :: rest →
    step s = exec (decode s.cfg t) { s with inbox := rest }) ∧
  (∀ (s : State) (i : Instr) (rest : List Event), s.cfg.wf = true → i.wf s.cfg = true →
    s.inbox = .txn (encode i) :: rest → step s = exec i { s with inbox := rest })

/-- With no event pending the block is idle (60_exceptions.md R434). -/
def Obligations.IdleStepChangesNothing : Prop :=
  ∀ s : State, s.cfg.wf = true → s.inbox = [] → step s = .next s

/-- A configuration that breaks one of the constraints of 00_scope.md R10 is refused, whatever else the state holds. -/
def Obligations.BadConfigRefused : Prop :=
  ∀ s : State,
    (¬ s.cfg.minWlen ≤ wavelength s.cfg s.cfg.minFreq ∨ s.cfg.lfsrSeed = 0 ∨
      (∃ i, i < 15 ∧ F32.lt (s.cfg.noiseFreqAt i) (s.cfg.noiseFreqAt (i + 1)) = false) ∨
      s.cfg.multAt 0 ≠ F32.one ∨
      ¬ (F32.le F32.zero s.cfg.lpfBeta = true ∧ F32.lt s.cfg.lpfBeta F32.one = true)) →
    step s = .refused .badConfig

/-- Block reset (70_reset_and_hazards.md R440), as an event: every register at its reset value, GINFO the constant,
reserved locations and CMD reading 0, the configuration untouched.  The model's choices: that it is an event of the inbox
and leaves no reply (log entry 15); that an output word, unspecified in R440, has no value (log entry 11); and that the
dither feed stays, where R440 gives the source no state and 93_implementation_defined.md I10 allows any (log entry 6). -/
def Obligations.BlockResetValues : Prop :=
  ∀ (s : State) (rest : List Event), s.cfg.wf = true → s.inbox = .reset :: rest →
    ∃ t, step s = .next t ∧
      (∀ p : Param, t.params.get p = if p = .masterVol then 16384 else 0) ∧ t.busErr = false ∧
      (∀ v : VoiceId, (getVoice t v).alive = false ∧ (getVoice t v).err = .none ∧ (getVoice t v).freq = 0#32 ∧
        (getVoice t v).feed = (getVoice s v).feed) ∧
      (∀ b : Nat, t.mem.readByte b = none) ∧
      (∀ a : Word, ∃ u, exec (.rdRsv a) t = .next u ∧ u.reply = some 0#32) ∧
      (∀ v : VoiceId, v.present s.cfg = true → ∃ u, exec (.rdCmd v) t = .next u ∧ u.reply = some 0#32) ∧
      (∃ u, exec .rdGinfo t = .next u ∧ u.reply = some (ginfoWord s.cfg)) ∧
      t.cfg = s.cfg ∧ t.inbox = rest ∧ t.reply = none

/-- No step changes the configuration (00_scope.md R9). -/
def Obligations.ConfigNeverChanges : Prop :=
  ∀ s t : State, step s = .next t → t.cfg = s.cfg

/-! ## The Parameter Set -/

/-- WR.NAME (40_host_bus.md R182), for every register: `Instr.wrParam p d` ranges over the 33 constructors `wrCh1En` to
`wrVibrato`.  The register takes the data word's signed value brought into its range; nothing else changes. -/
def Obligations.ParamWriteResult : Prop :=
  ∀ (p : Param) (d : Word) (s : State), ∃ t, exec (.wrParam p d) s = .next t ∧
    t.params.get p = max (Param.lo p) (min d.toInt (Param.hi p)) ∧
    (∀ q : Param, q ≠ p → t.params.get q = s.params.get q) ∧
    t.cfg = s.cfg ∧ t.busErr = s.busErr ∧ t.voices = s.voices ∧ t.mem = s.mem ∧ t.inbox = s.inbox ∧ t.reply = none

/-- RD.NAME (40_host_bus.md R184), for every register: `Instr.rdParam p` ranges over the 33 constructors `rdCh1En` to
`rdVibrato`.  The stored value as a two's-complement word is returned, and nothing else changes; for a legal value the
word read as a signed number is that value. -/
def Obligations.ParamReadResult : Prop :=
  ∀ (p : Param) (s : State),
    exec (.rdParam p) s = .next { s with reply := some (BitVec.ofInt 32 (s.params.get p)) } ∧
    (s.params.legal → (BitVec.ofInt 32 (s.params.get p)).toInt = s.params.get p)

/-- Only host bus writes of a register, and block reset, change the Parameter Set (10_state.md R43). -/
def Obligations.OnlyWritesChangeParams : Prop :=
  ∀ s t : State, step s = .next t → t.params ≠ s.params →
    (∃ rest, s.inbox = .reset :: rest) ∨
    ∃ (p : Param) (d : Word) (rest : List Event), s.inbox = .txn (.write p.addr d) :: rest

/-! ## Reserved locations, global registers, the bus error -/

/-- WR.RSV and RD.RSV (40_host_bus.md R183): the addresses R183 lists, read as zero, write ignored, no error. -/
def Obligations.ReservedLocations : Prop :=
  (∀ (c : Config) (a d : Word), a.toNat % 4 = 0 →
    ((0x28 ≤ a.toNat ∧ a.toNat ≤ 0x3C) ∨ (0x68 ≤ a.toNat ∧ a.toNat ≤ 0x7C) ∨ (0x8C ≤ a.toNat ∧ a.toNat ≤ 0xBC) ∨
      (0xE8 ≤ a.toNat ∧ a.toNat ≤ 0xEC) ∨ (0xF8 ≤ a.toNat ∧ a.toNat ≤ 0xFC) ∨
      ∃ v : VoiceId, v.val < c.numVoices ∧ a.toNat = 0x10C + 0x10 * v.val) →
    decode c (.write a d) = .wrRsv a d ∧ decode c (.read a) = .rdRsv a) ∧
  ∀ (s : State) (a d : Word),
    exec (.wrRsv a d) s = .next { s with reply := none } ∧
    exec (.rdRsv a) s = .next { s with reply := some 0x00000000#32 }

/-- WR.GSTATUS and RD.GSTATUS (40_host_bus.md R185, R186): encoding and effect. -/
def Obligations.GstatusAccess : Prop :=
  ∀ (s : State) (d : Word),
    decode s.cfg (.write 0x000000F0#32 d) = .wrGstatus d ∧ decode s.cfg (.read 0x000000F0#32) = .rdGstatus ∧
    exec (.wrGstatus d) s =
      .next { s with busErr := if d.getLsbD 0 = true then false else s.busErr, reply := none } ∧
    exec .rdGstatus s = .next { s with reply := some (if s.busErr = true then 0x00000001#32 else 0x00000000#32) }

/-- RD.GINFO and WR.GINFO (40_host_bus.md R187): encoding, the three fields of the word, and nothing changed. -/
def Obligations.GinfoAccess : Prop :=
  ∀ (s : State) (d : Word), s.cfg.wf = true →
    decode s.cfg (.write 0x000000F4#32 d) = .wrGinfo d ∧ decode s.cfg (.read 0x000000F4#32) = .rdGinfo ∧
    exec (.wrGinfo d) s = .next { s with reply := none } ∧
    ∃ w : Word, exec .rdGinfo s = .next { s with reply := some w } ∧
      (w.extractLsb' 16 16).toNat = s.cfg.blockFrames ∧ w.extractLsb' 8 8 = 0#8 ∧
      (w.extractLsb' 0 8).toNat = s.cfg.numVoices

/-- The bus error (40_host_bus.md R180): every transaction of the kinds R180 lists selects it; BUSERR is set, a read returns
0, nothing else changes. -/
def Obligations.BusErrorEffect : Prop :=
  ∀ (s : State) (a d : Word),
    (∀ x : Txn, x.isBusError s.cfg = true → decode s.cfg x = .busErr x) ∧
    exec (.busErr (.read a)) s = .next { s with busErr := true, reply := some 0x00000000#32 } ∧
    exec (.busErr (.write a d)) s = .next { s with busErr := true, reply := none }

/-- A transaction at an address that is not a multiple of 4 is a bus error (20_memory.md R109). -/
def Obligations.MisalignedIsBusError : Prop :=
  ∀ (s : State) (a d : Word), a.toNat % 4 ≠ 0 →
    exec (decode s.cfg (.read a)) s = .next { s with busErr := true, reply := some 0x00000000#32 } ∧
    exec (decode s.cfg (.write a d)) s = .next { s with busErr := true, reply := none }

/-- BUSERR is set only by a bus error and cleared only by a write of bit 0 = 1 to GSTATUS, or by block reset (10_state.md
R64). -/
def Obligations.BuserrLifecycle : Prop :=
  ∀ s t : State, step s = .next t →
    (s.busErr = true → t.busErr = false →
      (∃ rest, s.inbox = .reset :: rest) ∨
      ∃ (d : Word) (rest : List Event), s.inbox = .txn (.write 0x000000F0#32 d) :: rest ∧ d.getLsbD 0 = true) ∧
    (s.busErr = false → t.busErr = true →
      ∃ (x : Txn) (rest : List Event), s.inbox = .txn x :: rest ∧ x.isBusError s.cfg = true)

/-! ## Per-voice registers and the output buffer -/

/-- RD.CMD, RD.STATUS and RD.FREQ of a present voice (40_host_bus.md R189, R190, R193): encoding, the word returned, field
by field, and nothing changed. -/
def Obligations.VoiceRegisterReads : Prop :=
  ∀ (s : State) (v : VoiceId), v.val < s.cfg.numVoices →
    decode s.cfg (.read (BitVec.ofNat 32 (0x00000100 + 0x10 * v.val))) = .rdCmd v ∧
    decode s.cfg (.read (BitVec.ofNat 32 (0x00000104 + 0x10 * v.val))) = .rdStatus v ∧
    decode s.cfg (.read (BitVec.ofNat 32 (0x00000108 + 0x10 * v.val))) = .rdFreq v ∧
    exec (.rdCmd v) s = .next { s with reply := some 0x00000000#32 } ∧
    exec (.rdFreq v) s = .next { s with reply := some (getVoice s v).freq } ∧
    ∃ w : Word, exec (.rdStatus v) s = .next { s with reply := some w } ∧
      w.getLsbD 0 = (getVoice s v).alive ∧ w.extractLsb' 1 7 = 0#7 ∧
      w.extractLsb' 8 4 = (match (getVoice s v).err with
        | .none => 0#4 | .illegalCmd => 1#4 | .voiceDead => 2#4 | .badCount => 3#4 | .badFreq => 4#4) ∧
      w.extractLsb' 12 20 = 0#20

/-- WR.STATUS and WR.FREQ of a present voice (40_host_bus.md R191, R192): encoding; STATUS ignores the write, FREQ takes
all 32 bits, and nothing else changes. -/
def Obligations.VoiceRegisterWrites : Prop :=
  ∀ (s : State) (v : VoiceId) (d : Word), v.val < s.cfg.numVoices →
    decode s.cfg (.write (BitVec.ofNat 32 (0x00000104 + 0x10 * v.val)) d) = .wrStatus v d ∧
    decode s.cfg (.write (BitVec.ofNat 32 (0x00000108 + 0x10 * v.val)) d) = .wrFreq v d ∧
    exec (.wrStatus v d) s = .next { s with reply := none } ∧
    ∃ t, exec (.wrFreq v d) s = .next t ∧ State.SameButVoice v s t ∧ t.reply = none ∧
      getVoice t v = { getVoice s v with freq := d }

/-- Every operation on an absent voice slot has the effect of the bus error: nothing changes but BUSERR.  The decoder
selects none of these for an absent slot (30_encoding.md R145); that `exec` answers so is the model's choice (log entry
14). -/
def Obligations.AbsentVoiceIsBusError : Prop :=
  ∀ (s : State) (v : VoiceId) (n : BitVec 16) (w d : Word) (i : BitVec 13) (c : Side), s.cfg.numVoices ≤ v.val →
    ∀ op ∈ voiceOps v n w d i c, ∃ r, exec op s = .next { s with busErr := true, reply := r } ∧
      (r = none ∨ r = some 0x00000000#32)

/-- RD.OUT (40_host_bus.md R195, 20_memory.md R106): the word stored at the address R106 gives, least significant byte
first; a word no render has written is a fault of the model (20_memory.md R108; log entry 11). -/
def Obligations.RdOutReadsStoredWord : Prop :=
  ∀ (s : State) (v : VoiceId) (i : BitVec 13) (c : Side), v.val < s.cfg.numVoices → i.toNat < s.cfg.blockFrames →
    (∀ w : Word,
      (∀ j, j < 4 → s.mem.readByte (0x10000 * (v.val + 1) + 8 * i.toNat + 4 * c.num + j) =
        some (w.extractLsb' (8 * j) 8)) →
      exec (.rdOut v i c) s = .next { s with reply := some w }) ∧
    ((∃ j, j < 4 ∧
        s.mem.readByte (0x10000 * (v.val + 1) + 8 * i.toNat + 4 * c.num + j) = none) →
      exec (.rdOut v i c) s = .fault (.unwrittenOutput v i c))

/-- A read that is no bus error changes no state (20_memory.md R112): a next state differs only in the word returned. -/
def Obligations.ReadsChangeNothing : Prop :=
  ∀ (s t : State) (a : Word), s.cfg.wf = true → (Txn.read a).isBusError s.cfg = false →
    exec (decode s.cfg (.read a)) s = .next t → ∃ w, t = { s with reply := some w }

/-! ## Commands -/

/-- VINIT (41_voice_commands.md R220): encoding; every field of the voice at the value R220 gives; FREQ and everything
outside the voice stay.  That the dither feed stays too is the model's choice (log entry 6). -/
def Obligations.VinitResult : Prop :=
  ∀ (s : State) (v : VoiceId), v.val < s.cfg.numVoices →
    decode s.cfg (.write (BitVec.ofNat 32 (0x00000100 + 0x10 * v.val)) 0x01000000#32) = .vinit v ∧
    ∃ t, exec (.vinit v) s = .next t ∧ State.SameButVoice v s t ∧ t.reply = none ∧
      getVoice t v =
        { alive := true, err := .none, freq := (getVoice s v).freq, feed := (getVoice s v).feed,
          hid :=
            { cachedFreq := 0x00000000#32, maxWlen := wavelength s.cfg s.cfg.minFreq,
              ch1 := { wlen := 0, phase := 0, sweepCtr := 0, env := { ctr := 0, val := 15 } },
              ch2 := { wlen := 0, phase := 0, sweepCtr := 0, env := { ctr := 0, val := 15 } },
              wlen3 := 0, phase3 := 0#32, wlen4 := 0, phase4 := 0, env4 := { ctr := 0, val := 15 },
              lfsr := s.cfg.lfsrSeed, m12 := 0x00000000#32, m34 := 0x00000000#32, xPrev := 0x00000000#32,
              yPrev := 0x00000000#32 } }

/-- VFREE (41_voice_commands.md R222): encoding; ALIVE is cleared, ERR, FREQ and the output buffer stay; on a voice that is not
alive, nothing.  The hidden state it leaves is free (log entry 5): nothing is said of it.  That the dither feed stays is the model's
choice (log entry 6). -/
def Obligations.VfreeResult : Prop :=
  ∀ (s : State) (v : VoiceId), v.val < s.cfg.numVoices →
    decode s.cfg (.write (BitVec.ofNat 32 (0x00000100 + 0x10 * v.val)) 0x03000000#32) = .vfree v ∧
    ((getVoice s v).alive = true → ∃ t, exec (.vfree v) s = .next t ∧ State.SameButVoice v s t ∧ t.reply = none ∧
      (getVoice t v).alive = false ∧ (getVoice t v).err = (getVoice s v).err ∧
      (getVoice t v).freq = (getVoice s v).freq ∧ (getVoice t v).feed = (getVoice s v).feed) ∧
    ((getVoice s v).alive = false → exec (.vfree v) s = .next { s with reply := none })

/-- CMD.ILLEGAL (60_exceptions.md R402): encoding; ILLEGAL_CMD is recorded if no error was, alive or not; nothing else changes. -/
def Obligations.CmdIllegalResult : Prop :=
  ∀ (s : State) (v : VoiceId) (w : Word), v.val < s.cfg.numVoices →
    (decodeCmd w = .illegal →
      decode s.cfg (.write (BitVec.ofNat 32 (0x00000100 + 0x10 * v.val)) w) = .cmdIllegal v w) ∧
    ∃ t, exec (.cmdIllegal v w) s = .next t ∧ State.SameButVoice v s t ∧ t.reply = none ∧
      getVoice t v =
        { getVoice s v with err := if (getVoice s v).err = .none then .illegalCmd else (getVoice s v).err }

/-- VRENDER's checks in the order of 60_exceptions.md R403, and VRENDER(0) (41_voice_commands.md R238): an error changes
nothing but ERR, the first error being kept (R404); VRENDER(0) on an alive voice changes nothing at all. -/
def Obligations.VrenderChecks : Prop :=
  ∀ (s : State) (v : VoiceId) (n : BitVec 16), v.val < s.cfg.numVoices →
    (∀ code : ErrCode,
      (((getVoice s v).alive = false ∧ code = .voiceDead) ∨
        ((getVoice s v).alive = true ∧ s.cfg.blockFrames < n.toNat ∧ code = .badCount) ∨
        ((getVoice s v).alive = true ∧ n.toNat ≤ s.cfg.blockFrames ∧ n.toNat ≠ 0 ∧
          validFreq (getVoice s v).freq = false ∧ code = .badFreq)) →
      ∃ t, exec (.vrender v n) s = .next t ∧ State.SameButVoice v s t ∧ t.reply = none ∧
        getVoice t v = { getVoice s v with err := if (getVoice s v).err = .none then code else (getVoice s v).err }) ∧
    ((getVoice s v).alive = true → n.toNat = 0 → exec (.vrender v n) s = .next { s with reply := none })

/-- A VRENDER that passes its checks completes (41_voice_commands.md R224): ALIVE, ERR, FREQ, the Parameter Set, BUSERR
and every other voice stay; of memory it changes only frames 0 to N - 1 of its own buffer (20_memory.md R108), whose left
and right words are written and equal (45_mixer_dac.md R374); the last of them is V.yPrev. -/
def Obligations.VrenderCompletes : Prop :=
  ∀ (s : State) (v : VoiceId) (n : BitVec 16), s.Renders v n →
    ∃ t, exec (.vrender v n) s = .next t ∧
      t.cfg = s.cfg ∧ t.params = s.params ∧ t.busErr = s.busErr ∧ t.inbox = s.inbox ∧ t.reply = none ∧
      (∀ u : VoiceId, u ≠ v → getVoice t u = getVoice s u) ∧
      (getVoice t v).alive = true ∧ (getVoice t v).err = (getVoice s v).err ∧ (getVoice t v).freq = (getVoice s v).freq ∧
      (∀ b : Nat, b < 0x10000 * (v.val + 1) ∨ 0x10000 * (v.val + 1) + 8 * n.toNat ≤ b →
        t.mem.readByte b = s.mem.readByte b) ∧
      (∀ k, k < n.toNat → ∃ y, outRead v k .left t.mem = some y ∧ outRead v k .right t.mem = some y) ∧
      outRead v (n.toNat - 1) .left t.mem = some (getVoice t v).hid.yPrev

/-- What a VRENDER computes (41_voice_commands.md R224, R228, R233, R235).  The hidden state is that after exactly N frames of
the frame loop, which begins at `renderStart` (said in RenderStartWavelengths), and both words of frame k are V.yPrev as it
stands after k + 1 of them.  Each frame, field by field: tone steps of channels 1 and 2, the triangle step, the noise step,
and the mix step on their four levels in that order, with the frame's first draw for pair 1+2 and its second for pair 3+4
(45_mixer_dac.md R361, R368).  The feed that supplies the draws is the model's (log entry 6). -/
def Obligations.RenderFramesInOrder : Prop :=
  ∀ (s : State) (v : VoiceId) (n : BitVec 16), s.Renders v n →
    ∃ t, exec (.vrender v n) s = .next t ∧
      (getVoice t v).hid = (afterFrames s v n.toNat).hid ∧ (getVoice t v).feed = (afterFrames s v n.toNat).feed ∧
      (∀ k, k < n.toNat → ∀ c : Side, outRead v k c t.mem = some (afterFrames s v (k + 1)).hid.yPrev) ∧
      (afterFrames s v 0).hid = renderStart s.cfg s.params (getVoice s v).freq (getVoice s v).hid ∧
      (afterFrames s v 0).feed = (getVoice s v).feed ∧
      ∀ k,
        let d := derive s.cfg s.params
        let h := (afterFrames s v k).hid
        let first := (afterFrames s v k).feed.draw v
        let second := first.2.draw v
        let r1 := toneStep s.cfg h.maxWlen .one s.params.ch1 d.t1 h.ch1
        let r2 := toneStep s.cfg h.maxWlen .two s.params.ch2 d.t2 h.ch2
        let r3 := triStep s.cfg h.maxWlen s.params.ch3 h.wlen3 h.phase3
        let r4 := noiseStep s.params.ch4 d.envLen4 { wlen := h.wlen4, phase := h.phase4, lfsr := h.lfsr, env := h.env4 }
        let x := mixStep s.cfg d.mv r1.1 r2.1 r3.1 r4.1 first.1 second.1
          { m12 := h.m12, m34 := h.m34, xPrev := h.xPrev, yPrev := h.yPrev }
        (afterFrames s v (k + 1)).hid =
          { cachedFreq := h.cachedFreq, maxWlen := h.maxWlen, ch1 := r1.2, ch2 := r2.2, wlen3 := h.wlen3, phase3 := r3.2,
            wlen4 := r4.2.wlen, phase4 := r4.2.phase, env4 := r4.2.env, lfsr := r4.2.lfsr, m12 := x.m12, m34 := x.m34,
            xPrev := x.xPrev, yPrev := x.yPrev } ∧
        (afterFrames s v (k + 1)).feed = second.2

/-- Splitting a render (41_voice_commands.md R239): a render of a + b frames and two renders of a and of b frames, from
the same state and with the same draws, end in the same voice and give the same frames. -/
def Obligations.SplitRender : Prop :=
  ∀ (s : State) (v : VoiceId) (a b : BitVec 16), s.Renders v a → s.Renders v b →
    a.toNat + b.toNat ≤ s.cfg.blockFrames →
    ∃ t1 t2 t, exec (.vrender v a) s = .next t1 ∧ exec (.vrender v b) t1 = .next t2 ∧
      exec (.vrender v (a + b)) s = .next t ∧
      getVoice t v = getVoice t2 v ∧
      (∀ k, k < a.toNat → ∀ c : Side, outRead v k c t.mem = outRead v k c t1.mem) ∧
      (∀ k, k < b.toNat → ∀ c : Side, outRead v (a.toNat + k) c t.mem = outRead v k c t2.mem)

/-! ## Voices do not see each other; the host does not see hidden state -/

/-- No operation on one voice, and no operation on no voice, changes another voice's slot or a byte of its buffer window
(10_state.md R73). -/
def Obligations.VoiceIsolation : Prop :=
  ∀ (i : Instr) (s t : State) (u : VoiceId), s.cfg.wf = true → s.mem.wf = true → exec i s = .next t →
    Instr.voice? i ≠ some u →
    getVoice t u = getVoice s u ∧
    ∀ b, 0x10000 * (u.val + 1) ≤ b → b < 0x10000 * (u.val + 2) → t.mem.readByte b = s.mem.readByte b

/-- A voice's output depends only on its own state, the Parameter Set, FREQ and its dither draws (45_mixer_dac.md R377):
two states that agree on these give the same frames and the same voice, whatever else differs. -/
def Obligations.RenderDependsOnlyOnItsVoice : Prop :=
  ∀ (s s' : State) (v : VoiceId) (n : BitVec 16), s.Renders v n → s'.mem.wf = true → s'.cfg = s.cfg →
    s'.params = s.params → getVoice s' v = getVoice s v →
    ∃ t t', exec (.vrender v n) s = .next t ∧ exec (.vrender v n) s' = .next t' ∧ getVoice t' v = getVoice t v ∧
      ∀ k, k < n.toNat → ∀ c : Side, outRead v k c t'.mem = outRead v k c t.mem

/-- No operation but VRENDER lets the host learn anything of the hidden voice state (10_state.md R72). -/
def Obligations.HiddenStateInvisible : Prop :=
  ∀ (i : Instr) (s s' : State), State.SameToHost s s' → (∀ v n, i ≠ .vrender v n) →
    (∀ t, exec i s = .next t → ∃ t', exec i s' = .next t' ∧ State.SameToHost t t') ∧
    (∀ f, exec i s = .fault f → exec i s' = .fault f)

/-- The dither draws (45_mixer_dac.md R361): a render of N frames makes exactly 2N draws of its voice, no other operation
makes any, and every draw lies in -1 to 1.  The feed that numbers the draws is the model's (log entry 6). -/
def Obligations.DitherDraws : Prop :=
  (∀ (s : State) (v : VoiceId) (n : BitVec 16), s.Renders v n → ∃ t, exec (.vrender v n) s = .next t ∧
    (getVoice t v).feed.drawn = (getVoice s v).feed.drawn + 2 * n.toNat ∧
    (getVoice t v).feed.queue = (getVoice s v).feed.queue.drop (2 * n.toNat)) ∧
  (∀ (i : Instr) (s t : State), exec i s = .next t → (∀ v n, i = .vrender v n → ¬ s.Renders v n) → s.cfg.wf = true →
    s.mem.wf = true → ∀ u : VoiceId, (getVoice t u).feed = (getVoice s u).feed) ∧
  (∀ (v : VoiceId) (f : DitherFeed),
    F32.le (0xBF800000#32) (f.draw v).1 = true ∧ F32.le (f.draw v).1 F32.one = true)

/-! ## The render algorithm -/

/-- Counters advance whatever the enable and envelope flags say, and whatever the draws (41_voice_commands.md R234): after
any number of frames every oscillator, sweep, envelope and LFSR field is the same. -/
def Obligations.CountersIgnoreEnables : Prop :=
  ∀ (c : Config) (p : Params) (d : Derived) (v : VoiceId) (n : Nat) (h : VoiceState) (f f' : DitherFeed) (m : Mem)
    (e1 e2 e3 e4 v1 v2 v4 : Int),
    let q : Params :=
      { p with ch1 := { p.ch1 with en := e1, envEn := v1 }, ch2 := { p.ch2 with en := e2, envEn := v2 },
               ch3 := { p.ch3 with en := e3 }, ch4 := { p.ch4 with en := e4, envEn := v4 } }
    let r := (renderFrames c p d v n 0 { hid := h, feed := f, mem := m }).hid
    let r' := (renderFrames c q d v n 0 { hid := h, feed := f', mem := m }).hid
    r'.ch1 = r.ch1 ∧ r'.ch2 = r.ch2 ∧ r'.wlen3 = r.wlen3 ∧ r'.phase3 = r.phase3 ∧ r'.wlen4 = r.wlen4 ∧
      r'.phase4 = r.phase4 ∧ r'.env4 = r.env4 ∧ r'.lfsr = r.lfsr

/-- While the pitch is held, a detune change is not heard (70_reset_and_hazards.md R452). -/
def Obligations.DetuneNotHeardWhilePitchHeld : Prop :=
  ∀ (s : State) (v : VoiceId) (n : BitVec 16) (d1 d2 d3 : Int), s.Renders v n →
    (getVoice s v).freq = (getVoice s v).hid.cachedFreq →
    ∃ t t', exec (.vrender v n) s = .next t ∧
      exec (.vrender v n)
        { s with params := { s.params with ch1 := { s.params.ch1 with detune := d1 },
                                           ch2 := { s.params.ch2 with detune := d2 },
                                           ch3 := { s.params.ch3 with detune := d3 } } } = .next t' ∧
      t'.voices = t.voices ∧ t'.mem = t.mem

/-- VIBRATO has no effect on any output (10_state.md R60): a render after a write of it gives what it gives without, and
the register reads back what the write stored. -/
def Obligations.VibratoHasNoEffect : Prop :=
  ∀ (s : State) (v : VoiceId) (n : BitVec 16) (d : Word), s.Renders v n →
    ∃ t u u' w, exec (.vrender v n) s = .next t ∧ exec (.wrVibrato d) s = .next u ∧
      exec (.vrender v n) u = .next u' ∧ u'.voices = t.voices ∧ u'.mem = t.mem ∧
      exec .rdVibrato u' = .next w ∧ w.reply = some (BitVec.ofInt 32 (max 0 (min d.toInt 15)))

/-- Steps 1 to 3 of a render, before its first frame.  Pitch-change detection and channel 4's wavelength (41_voice_commands.md
R227, R229): the three wavelengths are recomputed exactly when FREQ differs as a word from V.cachedFreq, channel 4's on every
render, and no other field changes.  validFreq (R225).  wavelength (R226), in units of 2^-149: the rounded quotient
SAMPLE_RATE / x cut to a whole number, 2^31 - 1 from 2^31 on (an infinity counts 2^277 units), and 0 at +infinity (R227); at
+0.0, where R226 gives no value, the saturated one (log entry 9).  The derived quantities (R231, R232), with MASTER_VOL / 16384
exact. -/
def Obligations.RenderStartWavelengths : Prop :=
  (∀ (c : Config) (p : Params) (f : Word) (h : VoiceState),
    let r := renderStart c p f h
    (f ≠ h.cachedFreq → r.ch1.wlen = wavelength c (F32.mul f (c.multAt p.ch1.detune)) ∧
      r.ch2.wlen = wavelength c (F32.mul f (c.multAt p.ch2.detune)) ∧
      r.wlen3 = wavelength c (F32.mul f (c.multAt p.ch3.detune))) ∧
    (f = h.cachedFreq → r.ch1.wlen = h.ch1.wlen ∧ r.ch2.wlen = h.ch2.wlen ∧ r.wlen3 = h.wlen3) ∧
    r.cachedFreq = f ∧ r.maxWlen = h.maxWlen ∧
    r.wlen4 = (if p.ch4.noiseFreqMode = 1 then wavelength c f else wavelength c (c.noiseFreqAt (15 - p.ch4.noiseFreq).toNat)) ∧
    r.ch1.phase = h.ch1.phase ∧ r.ch2.phase = h.ch2.phase ∧ r.phase3 = h.phase3 ∧ r.phase4 = h.phase4 ∧
    r.ch1.sweepCtr = h.ch1.sweepCtr ∧ r.ch2.sweepCtr = h.ch2.sweepCtr ∧ r.ch1.env = h.ch1.env ∧ r.ch2.env = h.ch2.env ∧
    r.env4 = h.env4 ∧ r.lfsr = h.lfsr ∧ r.m12 = h.m12 ∧ r.m34 = h.m34 ∧ r.xPrev = h.xPrev ∧ r.yPrev = h.yPrev) ∧
  (∀ f : Word, (validFreq f = true ↔ 0x00000001 ≤ f.toNat ∧ f.toNat ≤ 0x7F7FFFFF) ∧
    (validFreq f = true ↔ F32.mag f < 0x7F800000 ∧ 0 < F32.value f)) ∧
  (∀ c : Config, c.wf = true →
    (∀ x : F32, validFreq x = true →
      let q := F32.round false (c.sampleRate * 2 ^ 149 * 2 ^ 149) (F32.units x)
      wavelength c x = if F32.units q < 2 ^ 31 * 2 ^ 149 then F32.units q / 2 ^ 149 else 2 ^ 31 - 1) ∧
    wavelength c 0x7F800000#32 = 0 ∧ wavelength c 0x00000000#32 = 2 ^ 31 - 1) ∧
  ∀ (c : Config) (p : Params), p.legal →
    let d := derive c p
    p.ch1.Derives c d.t1 ∧ p.ch2.Derives c d.t2 ∧
    d.envLen4 = wavelength c (F32.ofNat (240 / (p.ch4.envLen.toNat + 1))) ∧
    d.mv = F32.div (F32.ofNat p.masterVol.toNat) (F32.ofNat 16384) ∧ F32.value d.mv * 16384 = p.masterVol * 2 ^ 149

/-- The envelope: one step (42_tone_channels.md R275) counts up, and at `len` or beyond restarts and moves the value; and the
sequences from VINIT (R276): not looped, frame k sees 15 - (k div len), held at 0; looped, it cycles with period 16 len. -/
def Obligations.EnvelopeSequences : Prop :=
  (∀ (loop : Int) (len : Nat) (e : Envelope),
    (e.ctr + 1 < len → envelopeStep loop len e = { ctr := e.ctr + 1, val := e.val }) ∧
    (len ≤ e.ctr + 1 → envelopeStep loop len e =
      { ctr := 0, val := if e.val = 0 then (if loop = 1 then 15 else 0) else e.val - 1 })) ∧
  ∀ (len : Nat), 1 ≤ len → ∀ k : Nat,
    ((envelopeStep 0 len)^[k] { ctr := 0, val := 15 }).val = 15 - k / len ∧
    ((envelopeStep 1 len)^[k] { ctr := 0, val := 15 }).val = 15 - k / len % 16

/-- Sweep events (42_tone_channels.md R265 to R270): when the counter reaches its period it restarts and, if the sweep is
enabled, the wavelength in range and the amount not 0, the wavelength changes as R267 and R268 say; otherwise it stays.  The
phase and the envelope are not the sweep's to change. -/
def Obligations.SweepEvents : Prop :=
  ∀ (c : Config) (maxWlen : Nat) (ch : ToneCh) (p : ToneParams) (d : ToneDerived) (t : ToneState), c.wf = true →
    let r := sweepStep c maxWlen ch p d t
    let s := d.swAmt.natAbs
    r.phase = t.phase ∧ r.env = t.env ∧
    (t.sweepCtr + 1 < d.swRate → r.sweepCtr = t.sweepCtr + 1 ∧ r.wlen = t.wlen) ∧
    (d.swRate ≤ t.sweepCtr + 1 → r.sweepCtr = 0 ∧
      (p.sweepEn ≠ 1 ∨ d.swAmt = 0 ∨ t.wlen < c.minWlen ∨ maxWlen < t.wlen → r.wlen = t.wlen) ∧
      (p.sweepEn = 1 → c.minWlen ≤ t.wlen → t.wlen ≤ maxWlen →
        (0 < d.swAmt → ch = .one → r.wlen + t.wlen / 2 ^ s + 1 = t.wlen) ∧
        (0 < d.swAmt → ch = .two → r.wlen + t.wlen / 2 ^ s = t.wlen ∧ (r.wlen < t.wlen ↔ 2 ^ s ≤ t.wlen)) ∧
        (d.swAmt < 0 → r.wlen = t.wlen + t.wlen / 2 ^ s ∧ (t.wlen < r.wlen ↔ 2 ^ s ≤ t.wlen) ∧
          r.wlen ≤ maxWlen + maxWlen / 2)))

/-- The remapped sweep amount (41_voice_commands.md R232): the sign is kept and the magnitude reflected. -/
def Obligations.SweepAmountRemap : Prop :=
  remapSweep 0 = 0 ∧
  ∀ a : Int, -7 ≤ a → a ≤ 7 → a ≠ 0 →
    (0 < remapSweep a ↔ 0 < a) ∧ (remapSweep a).natAbs + a.natAbs = 8 ∧ 1 ≤ (remapSweep a).natAbs ∧
      (remapSweep a).natAbs ≤ 7

/-- Once a tone wavelength is out of range, no later frame changes it and every later frame is silent (42_tone_channels.md
R270). -/
def Obligations.OutOfRangeToneStaysSilent : Prop :=
  ∀ (c : Config) (maxWlen : Nat) (ch : ToneCh) (p : ToneParams) (d : ToneDerived) (t : ToneState),
    t.wlen < c.minWlen ∨ maxWlen < t.wlen → ∀ k : Nat,
    ((toneNext c maxWlen ch p d)^[k] t).wlen = t.wlen ∧ toneOut c maxWlen p d ((toneNext c maxWlen ch p d)^[k] t) = 0

/-- A tone channel's frame (42_tone_channels.md R260 to R263, R271): its level, the duty test in exact integers, from the
state at the frame's start; wavelength and sweep counter those of the sweep step (SweepEvents); the phase against the wavelength
after any sweep; the envelope step of the frame's start values (EnvelopeSequences); and over one full period the square wave is
on for min(w, (w * d8) div 8 + 1) frames (R262). -/
def Obligations.ToneLevelAndDuty : Prop :=
  (∀ (c : Config) (maxWlen : Nat) (ch : ToneCh) (p : ToneParams) (d : ToneDerived) (t : ToneState),
    let r := toneStep c maxWlen ch p d t
    (r.1 =
      if p.en = 1 ∧ c.minWlen ≤ t.wlen ∧ t.wlen ≤ maxWlen ∧ 8 * t.phase ≤ t.wlen * d.d8 then
        (if p.envEn = 1 then p.vol.toNat * t.env.val / 15 else p.vol.toNat)
      else 0) ∧
    r.2.wlen = (sweepStep c maxWlen ch p d t).wlen ∧ r.2.sweepCtr = (sweepStep c maxWlen ch p d t).sweepCtr ∧
    (0 < r.2.wlen → r.2.phase = (t.phase + 1) % r.2.wlen) ∧ (r.2.wlen = 0 → r.2.phase = 0) ∧
    r.2.env = envelopeStep p.envLoop d.envLen t.env) ∧
  ∀ (w d8 : Nat), ((List.range w).filter (fun phase => dutyOn w phase d8)).length = min w (w * d8 / 8 + 1)

/-- The triangle (43_triangle.md R310 to R313, R315): the phase is reduced modulo w, or as it is when w = 0; in range, the
table index is 0 to 31, entry j serving the phases with j * w ≤ 32 * phase < (j + 1) * w, and an enabled channel's level is
the entry times the volume, div 15; disabled or out of range the level is 0; the phase advances by 1 modulo 2^32 always. -/
def Obligations.TriangleIndex : Prop :=
  ∀ (c : Config) (maxWlen : Nat) (p : TriParams) (w : Nat) (phase : BitVec 32), c.wf = true →
    let ph := if w = 0 then phase.toNat else phase.toNat % w
    let r := triStep c maxWlen p w phase
    (triWrap w phase).toNat = ph ∧ r.2.toNat = (ph + 1) % 2 ^ 32 ∧
    (c.minWlen ≤ w → w ≤ maxWlen →
      ph * 32 / w < 32 ∧ (∀ j : Nat, ph * 32 / w = j ↔ j * w ≤ 32 * ph ∧ 32 * ph < (j + 1) * w) ∧
      (p.en = 1 → r.1 = c.triAt (ph * 32 / w) * p.vol.toNat / 15)) ∧
    (p.en ≠ 1 ∨ w < c.minWlen ∨ maxWlen < w → r.1 = 0)

/-- Every channel level is 0 to 15, and 0 when the channel's enable flag is 0 (41_voice_commands.md R233, 10_state.md
R46), for legal registers and an envelope value of at most 15. -/
def Obligations.ChannelLevels : Prop :=
  ∀ (c : Config) (maxWlen : Nat) (ps : Params) (d : ToneDerived) (t : ToneState) (w : Nat) (phase : BitVec 32)
    (n : NoiseState), c.wf = true → ps.legal → t.env.val ≤ 15 → n.env.val ≤ 15 →
    toneOut c maxWlen ps.ch1 d t ≤ 15 ∧ toneOut c maxWlen ps.ch2 d t ≤ 15 ∧ (triStep c maxWlen ps.ch3 w phase).1 ≤ 15 ∧
    noiseOut ps.ch4 n ≤ 15 ∧
    (ps.ch1.en = 0 → toneOut c maxWlen ps.ch1 d t = 0) ∧ (ps.ch2.en = 0 → toneOut c maxWlen ps.ch2 d t = 0) ∧
    (ps.ch3.en = 0 → (triStep c maxWlen ps.ch3 w phase).1 = 0) ∧ (ps.ch4.en = 0 → noiseOut ps.ch4 n = 0)

/-- lfsrStep bit by bit (44_noise.md R334): shift right by 1, feedback bit 0 XOR tap (bit 6 in short mode, else bit 1) into
bit 14; it never reaches 0 and its bit 15 stays 0; on the 15-bit states it is invertible (R335), in both modes. -/
def Obligations.LfsrNeverZero : Prop :=
  ∀ (mode : Int) (r q : BitVec 16), r.getLsbD 15 = false → q.getLsbD 15 = false →
    (∀ i, i < 14 → (lfsrStep r mode).getLsbD i = r.getLsbD (i + 1)) ∧
    (lfsrStep r mode).getLsbD 14 = (r.getLsbD 0 ^^ r.getLsbD (if mode = 1 then 6 else 1)) ∧
    (lfsrStep r mode).getLsbD 15 = false ∧ (r ≠ 0 → lfsrStep r mode ≠ 0) ∧ (lfsrStep r mode = lfsrStep q mode → r = q)

/-- The LFSR's periods (44_noise.md R338): in long mode every non-zero 15-bit state comes back after 32767 steps and no
sooner; in short mode every one comes back after 93 steps, and the seed 1 no sooner. -/
def Obligations.LfsrPeriods : Prop :=
  (∀ r : BitVec 16, r ≠ 0 → r.getLsbD 15 = false →
    (fun x => lfsrStep x 0)^[32767] r = r ∧ ∀ k, 0 < k → k < 32767 → (fun x => lfsrStep x 0)^[k] r ≠ r) ∧
  (∀ r : BitVec 16, r.getLsbD 15 = false → (fun x => lfsrStep x 1)^[93] r = r) ∧
  (∀ k, 0 < k → k < 93 → (fun x => lfsrStep x 1)^[k] 1#16 ≠ 1#16)

/-- The noise channel's frame: its level is on exactly when bit 0 of the LFSR is 0 (44_noise.md R331, R337), with no range
gate (R332); the LFSR steps and the phase restarts when the phase reaches the wavelength (R333); the envelope steps every frame
(R336).  And k frames with a constant wavelength, a wavelength of 0 acting as 1 (R332): from a phase below the wavelength the
LFSR has stepped (phase + k) div w times; a phase already at or past it makes the LFSR step in the first frame. -/
def Obligations.NoiseClock : Prop :=
  (∀ (p : NoiseParams) (envLen : Nat) (n : NoiseState),
    let r := noiseStep p envLen n
    (r.1 =
      if p.en = 1 ∧ n.lfsr.getLsbD 0 = false then
        (if p.envEn = 1 then p.vol.toNat * n.env.val / 15 else p.vol.toNat)
      else 0) ∧
    r.2.wlen = n.wlen ∧ r.2.env = envelopeStep p.envLoop envLen n.env ∧
    (n.wlen ≤ n.phase + 1 → r.2.phase = 0 ∧ r.2.lfsr = lfsrStep n.lfsr p.noiseMode) ∧
    (n.phase + 1 < n.wlen → r.2.phase = n.phase + 1 ∧ r.2.lfsr = n.lfsr)) ∧
  ∀ (p : NoiseParams) (envLen : Nat) (n : NoiseState) (k : Nat),
    let w := max n.wlen 1
    let after := (fun m => (noiseStep p envLen m).2)^[k] n
    (n.phase < w →
      after.lfsr = (fun r => lfsrStep r p.noiseMode)^[(n.phase + k) / w] n.lfsr ∧ after.phase = (n.phase + k) % w) ∧
    (w ≤ n.phase → 1 ≤ k →
      after.lfsr = (fun r => lfsrStep r p.noiseMode)^[1 + (k - 1) / w] n.lfsr ∧ after.phase = (k - 1) % w) ∧
    after.env = (envelopeStep p.envLoop envLen)^[k] n.env

/-- The properties of POW that 00_scope.md R16 lets the model assume, for an `a` ≥ 0 and a configured k > 0.  That POW is one
opaque constant, which gives every value these properties leave open (log entry 7), is the model's. -/
def Obligations.PowProperties : Prop :=
  ∀ a k : F32, F32.le F32.zero a = true → F32.lt F32.zero k = true →
    powConfig F32.zero k = F32.zero ∧ powConfig F32.one k = F32.one ∧
    (F32.le a F32.one = true → F32.le F32.zero (powConfig a k) = true ∧ F32.le (powConfig a k) F32.one = true) ∧
    powConfig a F32.one = a ∧
    (k ≠ F32.one → F32.lt F32.zero a = true → a ≠ F32.one →
      (F32.lt F32.one a = true ∨
        (F32.le F32.zero (Config.freePow a k) = true ∧ F32.le (Config.freePow a k) F32.one = true)) →
      powConfig a k = Config.freePow a k)

/-- fl32 (00_scope.md R14): the rounded value of n / d units of 2^-149 is a nearest finite binary32 value, and of two
equally near ones the one whose last bit is 0; subnormal values are among them. -/
def Obligations.RoundsToNearestEven : Prop :=
  ∀ (s : Bool) (n d : Nat), 0 < d → F32.isInf (F32.round s n d) = false →
    F32.neg? (F32.round s n d) = s ∧ F32.isNaN (F32.round s n d) = false ∧
    ∀ y : F32, F32.mag y < 0x7F800000 →
      ((F32.units (F32.round s n d) * d : Int) - n).natAbs ≤ ((F32.units y * d : Int) - n).natAbs ∧
      (((F32.units (F32.round s n d) * d : Int) - n).natAbs = ((F32.units y * d : Int) - n).natAbs →
        F32.units y ≠ F32.units (F32.round s n d) → F32.mag (F32.round s n d) % 2 = 0)

/-- Each operation on finite binary32 values is the exact result rounded once (00_scope.md R14): sums and differences,
products, and quotients by a non-zero value, in units of 2^-149.  Comparison is that of the values; float(n) is exact up to
2^24 and trunc cuts the fraction off (R15). -/
def Obligations.OperationsRoundOnce : Prop :=
  (∀ x y : F32, F32.mag x < 0x7F800000 → F32.mag y < 0x7F800000 →
    (F32.value x + F32.value y ≠ 0 → F32.add x y =
      F32.round (decide (F32.value x + F32.value y < 0)) (F32.value x + F32.value y).natAbs 1) ∧
    (F32.value x - F32.value y ≠ 0 → F32.sub x y =
      F32.round (decide (F32.value x - F32.value y < 0)) (F32.value x - F32.value y).natAbs 1) ∧
    F32.mul x y = F32.round (F32.neg? x != F32.neg? y) (F32.units x * F32.units y) (2 ^ 149) ∧
    (F32.units y ≠ 0 →
      F32.div x y = F32.round (F32.neg? x != F32.neg? y) (F32.units x * 2 ^ 149) (F32.units y)) ∧
    (F32.lt x y = true ↔ F32.value x < F32.value y) ∧ (F32.le x y = true ↔ F32.value x ≤ F32.value y)) ∧
  (∀ n : Nat, n ≤ 2 ^ 24 →
    F32.mag (F32.ofNat n) < 0x7F800000 ∧ F32.neg? (F32.ofNat n) = false ∧ F32.units (F32.ofNat n) = n * 2 ^ 149) ∧
  ∀ x : F32, F32.trunc x * 2 ^ 149 ≤ F32.units x ∧ F32.units x < (F32.trunc x + 1) * 2 ^ 149

/-- One mix step (45_mixer_dac.md R360 to R372), each operation one binary32 operation in the order the rules write it, the
distortion's three cases among them (R365; POW is said in PowProperties): the new memories; the sample of the frame is the new
yPrev. -/
def Obligations.MixStepFormula : Prop :=
  ∀ (c : Config) (mv : F32) (l1 l2 l3 l4 : Nat) (d12 d34 : F32) (x : MixState),
    let pair (sum : Nat) (d m : F32) : F32 :=
      let a := F32.mul (F32.ofNat sum) (F32.add F32.one (F32.mul d c.ditherAmp))
      let b := F32.sub (F32.div a (F32.ofNat 15)) F32.one
      let e :=
        if F32.lt F32.zero b = true then powConfig b c.k
        else if F32.lt b F32.zero = true then F32.neg (powConfig (F32.neg b) c.k)
        else F32.zero
      F32.add e (F32.mul c.lpfBeta (F32.sub m e))
    let m12 := pair (l1 + l2) d12 x.m12
    let m34 := pair (l3 + l4) d34 x.m34
    let mix := F32.mul (F32.mul (F32.add (F32.mul m12 c.w12) (F32.mul m34 c.w34)) c.wAll) mv
    mixStep c mv l1 l2 l3 l4 d12 d34 x =
      { m12 := m12, m34 := m34, xPrev := mix,
        yPrev := F32.sub (F32.add (F32.mul 0x3F7FBE77#32 x.yPrev) mix) x.xPrev }

/-! ## Rules of the whole machine -/

/-- The invariant holds right after block reset, in every configuration of the block. -/
def Obligations.InvariantAtReset : Prop :=
  (∀ c : Config, c.wf = true → (State.resetWith c).Inv) ∧ State.reset.Inv

/-- Every step keeps the invariant: registers legal (10_state.md R44), memory canonical and inside the output buffers
(20_memory.md R107), and for every alive voice R71's envelope values and LFSR and R70's bounds on every wavelength, counter and
phase but V.phase3, which wraps. -/
def Obligations.InvariantKept : Prop :=
  ∀ s t : State, s.Inv → step s = .next t → t.Inv

/-- ERR is cleared only by VINIT or block reset and changes only from 0 (60_exceptions.md R404, R405); ALIVE is set only
by VINIT and cleared only by VFREE or block reset (10_state.md R67); FREQ changes only by a write of it or block reset
(10_state.md R68). -/
def Obligations.VoiceStatusLifecycle : Prop :=
  ∀ (s t : State) (v : VoiceId), step s = .next t → (∀ rest, s.inbox ≠ .reset :: rest) →
    ((getVoice t v).err ≠ (getVoice s v).err →
      ((getVoice s v).err = .none ∨ ∃ rest, s.inbox = .txn (encode (.vinit v)) :: rest)) ∧
    ((getVoice s v).alive = false → (getVoice t v).alive = true →
      ∃ rest, s.inbox = .txn (encode (.vinit v)) :: rest) ∧
    ((getVoice s v).alive = true → (getVoice t v).alive = false →
      ∃ rest, s.inbox = .txn (encode (.vfree v)) :: rest) ∧
    ((getVoice t v).freq ≠ (getVoice s v).freq →
      ∃ rest, s.inbox = .txn (encode (.wrFreq v (getVoice t v).freq)) :: rest)

/-- Only VRENDER writes an output buffer (20_memory.md R107); block reset makes every word unwritten. -/
def Obligations.OnlyRenderWritesBuffers : Prop :=
  ∀ s t : State, step s = .next t → t.mem ≠ s.mem →
    (∃ rest, s.inbox = .reset :: rest) ∨
    ∃ (v : VoiceId) (n : BitVec 16) (rest : List Event), s.inbox = .txn (encode (.vrender v n)) :: rest

/-- The block never traps (60_exceptions.md R400): every event is followed by a next state in which the next event is the
one to accept; the one stop is the model's own fault on reading an output word that no render has written (20_memory.md R108;
log entry 11). -/
def Obligations.NeverTraps : Prop :=
  ∀ s : State, s.cfg.wf = true →
    (∃ t, step s = .next t ∧ t.inbox = s.inbox.tail) ∨
    ∃ (v : VoiceId) (i : BitVec 13) (c : Side) (rest : List Event),
      s.inbox = .txn (encode (.rdOut v i c)) :: rest ∧ outRead v i.toNat c s.mem = none ∧
        step s = .fault (.unwrittenOutput v i c)

/-- The boot sequence (70_reset_and_hazards.md R442): FREQ, VINIT, VRENDER(N), each accepted, leave STATUS without an
error and frames 0 to N - 1 readable. -/
def Obligations.BootSequence : Prop :=
  ∀ (s : State) (v : VoiceId) (f : Word) (n : BitVec 16), s.cfg.wf = true → s.mem.wf = true → v.val < s.cfg.numVoices →
    validFreq f = true → 1 ≤ n.toNat → n.toNat ≤ s.cfg.blockFrames →
    ∃ t1 t2 t3 t4, exec (.wrFreq v f) s = .next t1 ∧ exec (.vinit v) t1 = .next t2 ∧ exec (.vrender v n) t2 = .next t3 ∧
      exec (.rdStatus v) t3 = .next t4 ∧ t4.reply = some 0x00000001#32 ∧
      ∀ i : BitVec 13, i.toNat < n.toNat → ∀ c : Side, ∃ t5, exec (.rdOut v i c) t3 = .next t5
end

