-- ==== Sys2Proof/Laws/Decode.lean ====
section
/-! SUPPORT. What the bus decoder gives for the address of each kind of location, what the range of a configuration
gives. -/

namespace Sys2Proof

/-! ## The Parameter Set's offsets -/

/-- The register at a register's offset is that register. -/
theorem Param.ofOffset_offset (p : Param) : Param.ofOffset? p.offset = some p := by cases p <;> decide

/-- A register found at an offset has that offset. -/
theorem Param.offset_of_ofOffset {n : Nat} {p : Param} (h : Param.ofOffset? n = some p) : p.offset = n := by
  have := List.find?_some h
  simpa using this

/-- Every register lies below the global registers (10_state.md R43). -/
theorem Param.offset_lt (p : Param) : p.offset < 0xF0 := by cases p <;> decide

/-- Every register is word aligned. -/
theorem Param.offset_mod (p : Param) : p.offset % 4 = 0 := by cases p <;> decide

/-- A register's address is its offset. -/
theorem Param.addr_toNat (p : Param) : p.addr.toNat = p.offset := by cases p <;> rfl

/-! ## The bus decoder, location by location (30_encoding.md R145) -/

/-- A register's address decodes to the register. -/
theorem decodeBus_param (c : Config) (dir : Dir) (p : Param) : decodeBus c dir p.addr = .param p := by
  unfold decodeBus
  have h1 := p.offset_mod
  have h2 := p.offset_lt
  simp only [Param.addr_toNat, h1, h2, Param.ofOffset_offset, ne_eq, not_true_eq_false, if_false, if_true]

/-- A write of a register is its WR row. -/
theorem decode_wrParam (c : Config) (p : Param) (d : Word) : decode c (.write p.addr d) = .wrParam p d := by
  simp [decode, decodeWrite, decodeBus_param]

/-- A read of a register is its RD row. -/
theorem decode_rdParam (c : Config) (p : Param) : decode c (.read p.addr) = .rdParam p := by
  simp [decode, decodeRead, decodeBus_param]

/-- The transaction of a WR row. -/
theorem encode_wrParam (p : Param) (d : Word) : encode (.wrParam p d) = .write p.addr d := by cases p <;> rfl

/-- The transaction of an RD row. -/
theorem encode_rdParam (p : Param) : encode (.rdParam p) = .read p.addr := by cases p <;> rfl

/-- A WR row is well-formed for every data word. -/
theorem wf_wrParam (c : Config) (p : Param) (d : Word) : (Instr.wrParam p d).wf c = true := by cases p <;> rfl

/-- An RD row is well-formed. -/
theorem wf_rdParam (c : Config) (p : Param) : (Instr.rdParam p).wf c = true := by cases p <;> rfl

/-- The address of a voice register as a number (10_state.md R66). -/
theorem voiceRegAddr_toNat (v : VoiceId) (o : Nat) (h : o < 16) : (voiceRegAddr v o).toNat = 0x100 + 0x10 * v.val + o := by
  simp only [voiceRegAddr, BitVec.toNat_ofNat]
  have := v.isLt
  omega

/-- A register of a present voice block decodes to that register. -/
theorem decodeBus_voice (c : Config) (dir : Dir) (v : VoiceId) (o : Nat) (ho : o ∈ [0x0, 0x4, 0x8, 0xC]) (hv : v.present c = true) :
    decodeBus c dir (voiceRegAddr v o) = voiceTarget v o := by
  have ho' : o < 16 ∧ o % 4 = 0 := by simp at ho; omega
  have hn := voiceRegAddr_toNat v o ho'.1
  have := v.isLt
  have e1 : ((voiceRegAddr v o).extractLsb' 4 4).toFin = v := by
    apply Fin.ext
    simp only [BitVec.val_toFin, BitVec.extractLsb'_toNat, hn, Nat.shiftRight_eq_div_pow]
    omega
  have e2 : ((voiceRegAddr v o).extractLsb' 0 4).toNat = o := by
    simp only [BitVec.extractLsb'_toNat, hn, Nat.shiftRight_eq_div_pow]
    omega
  unfold decodeBus
  simp only [hn]
  rw [if_neg (by omega), if_neg (by omega), if_neg (by omega), if_neg (by omega), if_neg (by omega), if_pos (by omega)]
  simp only [VoiceId.present, decide_eq_true_eq] at hv
  rw [e1, e2, if_neg (by omega)]

/-- A sample word of a present voice's buffer decodes, on a read, to its frame and channel (20_memory.md R106). -/
theorem decodeBus_out (c : Config) (v : VoiceId) (i : BitVec 13) (s : Side) (hv : v.present c = true) (hi : i.toNat < c.blockFrames) :
    decodeBus c .r (BitVec.ofNat 32 (outAddr v i.toNat s)) = .out v i s := by
  have hv' := v.isLt
  have hi' := i.isLt
  have hs : s.num ≤ 1 := by cases s <;> decide
  have hn : (BitVec.ofNat 32 (outAddr v i.toNat s)).toNat = 0x10000 * (v.val + 1) + 8 * i.toNat + 4 * s.num := by
    simp only [outAddr, BitVec.toNat_ofNat]; omega
  simp only [VoiceId.present, decide_eq_true_eq] at hv
  unfold decodeBus
  simp only [hn, BitVec.extractLsb'_toNat, Nat.shiftRight_eq_div_pow]
  rw [if_neg (by omega), if_neg (by omega), if_neg (by omega), if_neg (by omega), if_neg (by omega), if_neg (by omega),
    if_pos (by omega)]
  congr 1
  · apply Fin.ext
    simp only [Fin.ofNat]
    omega
  · apply BitVec.eq_of_toNat_eq
    simp only [BitVec.extractLsb'_toNat, hn, Nat.shiftRight_eq_div_pow]
    omega
  · have : (BitVec.ofNat 32 (outAddr v i.toNat s)).getLsbD 2 = decide (s.num = 1) := by
      rw [BitVec.getLsbD, hn, Nat.testBit_eq_decide_div_mod_eq]
      congr 1
      rw [eq_iff_iff]
      omega
    rw [this]; cases s <;> rfl

/-- The VRENDER word decodes to its count (30_encoding.md R143). -/
theorem decodeCmd_vrender (n : BitVec 16) : decodeCmd (vrenderWord n) = .vrender n := by
  have hn : (vrenderWord n).toNat = 0x02000000 + n.toNat := by
    unfold vrenderWord
    rw [BitVec.toNat_append]
    have := n.isLt
    rw [← Nat.shiftLeft_add_eq_or_of_lt this]; simp [Nat.shiftLeft_eq]
  have := n.isLt
  unfold decodeCmd
  simp only [BitVec.extractLsb'_toNat, Nat.shiftRight_eq_div_pow, hn]
  rw [if_neg (by omega), if_pos (by omega)]
  congr 1
  apply BitVec.eq_of_toNat_eq
  simp only [BitVec.extractLsb'_toNat, Nat.shiftRight_eq_div_pow, hn]
  omega

/-! ## Configurations -/

/-- The bounds on a block's size (00_scope.md R8). -/
theorem Config.wf_bounds {c : Config} (h : c.wf = true) :
    c.numVoices ≤ 16 ∧ c.blockFrames ≤ 8192 ∧ 1 ≤ c.minWlen := by
  simp only [Config.wf, Bool.and_eq_true, decide_eq_true_eq] at h
  omega

end Sys2Proof
end

