-- ==== Sys2Proof/Laws/Float.lean ====
section
/-! SUPPORT. binary32 laws: the parts of a packed word, units as a strictly rising function of bits 30:0, and exact rounding. -/

namespace Sys2Proof

@[simp] theorem F32.mag_pack {m : Nat} (s : Bool) (h : m < 2 ^ 31) : F32.mag (F32.pack s m) = m := by
  unfold F32.mag F32.pack
  rw [BitVec.toNat_ofNat]
  cases s <;> simp <;> omega

@[simp] theorem F32.neg?_pack {m : Nat} (s : Bool) (h : m < 2 ^ 31) : F32.neg? (F32.pack s m) = s := by
  unfold F32.neg? F32.pack
  rw [BitVec.getLsbD, BitVec.toNat_ofNat, Nat.testBit_eq_decide_div_mod_eq]
  cases s <;> simp <;> omega

theorem F32.magOfUnits_le (u : Nat) : F32.magOfUnits u ≤ 0x7F800000 := by
  unfold F32.magOfUnits
  split
  · omega
  · exact Nat.min_le_right _ _

@[simp] theorem F32.mag_round (s : Bool) (n d : Nat) :
    F32.mag (F32.round s n d) = F32.magOfUnits (F32.roundUnits n d) :=
  F32.mag_pack s (Nat.lt_of_le_of_lt (F32.magOfUnits_le _) (by decide))

@[simp] theorem F32.neg?_round (s : Bool) (n d : Nat) : F32.neg? (F32.round s n d) = s :=
  F32.neg?_pack s (Nat.lt_of_le_of_lt (F32.magOfUnits_le _) (by decide))

/-- A rounded value is never a NaN. -/
@[simp] theorem F32.isNaN_round (s : Bool) (n d : Nat) : F32.isNaN (F32.round s n d) = false := by
  simp [F32.isNaN, F32.magOfUnits_le]

/-- The units that bits 30:0 stand for, written with the exponent's power taken from 0 on. -/
theorem F32.units_eq (x : F32) : F32.units x =
    if F32.mag x / 2 ^ 23 = 0 then F32.mag x else (2 ^ 23 + F32.mag x % 2 ^ 23) * 2 ^ (F32.mag x / 2 ^ 23 - 1) := by
  unfold F32.units
  simp only
  split
  · omega
  · rfl

/-- Bits 30:0 order the magnitudes. -/
theorem F32.units_lt_units {x y : F32} (h : F32.mag x < F32.mag y) : F32.units x < F32.units y := by
  rw [F32.units_eq, F32.units_eq]
  generalize F32.mag x = a at h
  generalize F32.mag y = b at h
  by_cases hb : b / 2 ^ 23 = 0
  · rw [if_pos hb, if_pos (by omega)]; exact h
  · rw [if_neg hb]
    have pb : 1 ≤ 2 ^ (b / 2 ^ 23 - 1) := Nat.one_le_two_pow
    by_cases ha : a / 2 ^ 23 = 0
    · rw [if_pos ha]
      calc a < 2 ^ 23 := by omega
        _ ≤ (2 ^ 23 + b % 2 ^ 23) * 1 := by omega
        _ ≤ _ := Nat.mul_le_mul_left _ pb
    · rw [if_neg ha]
      rcases Nat.lt_or_ge (a / 2 ^ 23) (b / 2 ^ 23) with he | he
      · have pw : 2 ^ (a / 2 ^ 23 - 1) * 2 ≤ 2 ^ (b / 2 ^ 23 - 1) := by
          rw [← Nat.pow_succ]; exact Nat.pow_le_pow_right (by decide) (by omega)
        have pa : 1 ≤ 2 ^ (a / 2 ^ 23 - 1) := Nat.one_le_two_pow
        calc (2 ^ 23 + a % 2 ^ 23) * 2 ^ (a / 2 ^ 23 - 1) < 2 ^ 24 * 2 ^ (a / 2 ^ 23 - 1) :=
              Nat.mul_lt_mul_of_pos_right (by omega) pa
          _ = 2 ^ 23 * (2 ^ (a / 2 ^ 23 - 1) * 2) := by ring
          _ ≤ 2 ^ 23 * 2 ^ (b / 2 ^ 23 - 1) := Nat.mul_le_mul_left _ pw
          _ ≤ _ := Nat.mul_le_mul_right _ (by omega)
      · have e : a / 2 ^ 23 = b / 2 ^ 23 := by omega
        rw [e]
        exact Nat.mul_lt_mul_of_pos_right (by omega) pb

theorem F32.units_inj {x y : F32} (h : F32.units x = F32.units y) : F32.mag x = F32.mag y := by
  rcases Nat.lt_trichotomy (F32.mag x) (F32.mag y) with h' | h' | h'
  · have := F32.units_lt_units h'; omega
  · exact h'
  · have := F32.units_lt_units h'; omega

theorem F32.units_eq_zero {x : F32} : F32.units x = 0 ↔ F32.mag x = 0 := by
  rw [F32.units_eq]
  split
  · rfl
  · constructor <;> intro h
    · simp at h
    · omega

/-- 24 significant bits from `2 ^ e` units on, below 2^128. -/
theorem F32.units_magOfUnits {u : Nat} {x : F32} (hx : F32.mag x = F32.magOfUnits u) (hu : u < 2 ^ 24 * 2 ^ 253)
    (hd : 2 ^ (Nat.log2 u - 23) ∣ u) : F32.units x = u ∧ F32.mag x < 0x7F800000 := by
  rw [F32.units_eq, hx]
  unfold F32.magOfUnits
  by_cases hs : u < 2 ^ 24
  · rw [if_pos hs]
    by_cases h0 : u / 2 ^ 23 = 0
    · rw [if_pos h0]; omega
    · have e1 : u / 2 ^ 23 = 1 := by omega
      rw [if_neg h0, e1]
      simp only [Nat.sub_self, Nat.pow_zero, Nat.mul_one]; omega
  · rw [if_neg hs]
    have hu0 : u ≠ 0 := by omega
    have l1 : 2 ^ Nat.log2 u ≤ u := Nat.log2_self_le hu0
    have l2 : u < 2 ^ (Nat.log2 u + 1) := Nat.lt_log2_self
    have l3 : 24 ≤ Nat.log2 u := (Nat.le_log2 hu0).2 (by omega)
    have l4 : Nat.log2 u < 24 + 253 := (Nat.log2_lt hu0).2 (Nat.lt_of_lt_of_eq hu (Nat.pow_add 2 24 253).symm)
    obtain ⟨q, hq⟩ := hd
    have hp := Nat.two_pow_pos (Nat.log2 u - 23)
    have eq1 : u / 2 ^ (Nat.log2 u - 23) = q := Nat.div_eq_of_eq_mul_right hp hq
    have q1 : 2 ^ 23 ≤ q := by
      have h : 2 ^ (Nat.log2 u - 23) * 2 ^ 23 ≤ 2 ^ (Nat.log2 u - 23) * q := by
        rw [← Nat.pow_add, ← hq, Nat.sub_add_cancel (by omega)]; exact l1
      exact Nat.le_of_mul_le_mul_left h hp
    have q2 : q < 2 ^ 24 := by
      have h : 2 ^ (Nat.log2 u - 23) * q < 2 ^ (Nat.log2 u - 23) * 2 ^ 24 := by
        rw [← Nat.pow_add, ← hq, show Nat.log2 u - 23 + 24 = Nat.log2 u + 1 by omega]; exact l2
      exact Nat.lt_of_mul_lt_mul_left h
    simp only [eq1]
    generalize hsh : Nat.log2 u - 23 = sh at hq hp
    have hsh' : 1 ≤ sh ∧ sh < 254 := by omega
    rw [Nat.min_eq_left (by omega), if_neg (by omega)]
    refine ⟨?_, by omega⟩
    have e1 : (sh * 2 ^ 23 + q) / 2 ^ 23 - 1 = sh := by omega
    have e2 : 2 ^ 23 + (sh * 2 ^ 23 + q) % 2 ^ 23 = q := by omega
    rw [e1, e2, hq, Nat.mul_comm]

/-- Rounding a value that binary32 represents gives it exactly: `m * 2 ^ e` units, at most 24 significant bits (R14). -/
theorem F32.round_exact (s : Bool) {n d m e : Nat} (hd : 0 < d) (hm : m < 2 ^ 24) (he : e ≤ 253) (hn : n = d * (m * 2 ^ e)) :
    F32.units (F32.round s n d) = m * 2 ^ e ∧ F32.mag (F32.round s n d) < 0x7F800000 := by
  have hu : m * 2 ^ e < 2 ^ 24 * 2 ^ 253 :=
    Nat.lt_of_lt_of_le (Nat.mul_lt_mul_of_pos_right hm (Nat.two_pow_pos e))
      (Nat.mul_le_mul_left _ (Nat.pow_le_pow_right (by decide) he))
  have hdv : 2 ^ (Nat.log2 (m * 2 ^ e) - 23) ∣ m * 2 ^ e := by
    by_cases h0 : m = 0
    · simp [h0]
    · have : Nat.log2 (m * 2 ^ e) < 24 + e := by
        refine (Nat.log2_lt (by simp [h0])).2 ?_
        rw [Nat.pow_add]; exact Nat.mul_lt_mul_of_pos_right hm (Nat.two_pow_pos e)
      exact Dvd.dvd.mul_left (Nat.pow_dvd_pow 2 (by omega)) m
  have hr : F32.roundUnits n d = m * 2 ^ e := by
    unfold F32.roundUnits F32.spacing roundHalfEven
    have e0 : n / d = m * 2 ^ e := by rw [hn, Nat.mul_div_cancel_left _ hd]
    rw [e0]
    obtain ⟨k, hk⟩ := hdv
    generalize 2 ^ (Nat.log2 (m * 2 ^ e) - 23) = sp at hk
    rcases Nat.eq_zero_or_pos sp with h0 | hsp
    · rw [h0] at hk ⊢; simp at hk; simp [hk]
    · have e1 : n = d * sp * k := by rw [hn, hk]; ring
      have hds : 0 < d * sp := Nat.mul_pos hd hsp
      simp only [e1, Nat.mul_mod_right, Nat.mul_zero, if_pos hds, Nat.mul_div_cancel_left _ hds]
      rw [hk, Nat.mul_comm]
  have hmag := F32.mag_round s n d
  rw [hr] at hmag
  exact F32.units_magOfUnits hmag hu hdv

end Sys2Proof
end

