-- ==== Sys2Proof/Laws/Memory.lean ====
section
/-! SUPPORT. The laws of the output-buffer memory: every write keeps the canonical form, a read after a write gives the
value written, and every other byte is left alone. -/

namespace Sys2Proof.Machine

/-- The canonical form as a chain of rising addresses. -/
theorem Mem.wf_iff_pairwise (m : Mem) : m.wf = true ↔ m.Pairwise (fun a b => a.1 < b.1) := by
  induction m with
  | nil => simp [Mem.wf]
  | cons x m ih =>
    cases m with
    | nil => simp [Mem.wf]
    | cons y m =>
      obtain ⟨a, xa⟩ := x
      obtain ⟨b, yb⟩ := y
      simp only [Mem.wf, Bool.and_eq_true, decide_eq_true_eq, ih]
      constructor
      · rintro ⟨hab, hp⟩
        refine List.pairwise_cons.2 ⟨?_, hp⟩
        intro z hz
        rcases List.mem_cons.1 hz with rfl | hz
        · exact hab
        · exact lt_trans hab ((List.pairwise_cons.1 hp).1 z hz)
      · intro hp
        have h := List.pairwise_cons.1 hp
        exact ⟨h.1 _ List.mem_cons_self, h.2⟩

/-- The cells of a written memory are the new one and old ones. -/
theorem Mem.mem_writeByte {m : Mem} {a : Nat} {x : Byte} {cell : Host.Cell} (h : cell ∈ m.writeByte a x) :
    cell = (a, x) ∨ cell ∈ m := by
  induction m with
  | nil => simpa [Mem.writeByte] using h
  | cons y m ih =>
    obtain ⟨b, yb⟩ := y
    simp only [Mem.writeByte] at h
    split at h
    · simpa using h
    · split at h
      · rcases List.mem_cons.1 h with h | h
        · exact .inl h
        · exact .inr (List.mem_cons_of_mem _ h)
      · rcases List.mem_cons.1 h with h | h
        · exact .inr (h ▸ List.mem_cons_self)
        · rcases ih h with h | h
          · exact .inl h
          · exact .inr (List.mem_cons_of_mem _ h)

/-- Writing a byte keeps the canonical form. -/
theorem Mem.wf_writeByte {m : Mem} (h : m.wf = true) (a : Nat) (x : Byte) : (m.writeByte a x).wf = true := by
  rw [Mem.wf_iff_pairwise] at h ⊢
  induction m with
  | nil => simp [Mem.writeByte]
  | cons y m ih =>
    obtain ⟨b, yb⟩ := y
    have hc := List.pairwise_cons.1 h
    simp only [Mem.writeByte]
    split
    · rename_i hab
      refine List.pairwise_cons.2 ⟨?_, h⟩
      intro z hz
      rcases List.mem_cons.1 hz with rfl | hz
      · exact hab
      · exact lt_trans hab (hc.1 z hz)
    · split
      · rename_i hab
        subst hab
        exact List.pairwise_cons.2 ⟨hc.1, hc.2⟩
      · rename_i h1 h2
        refine List.pairwise_cons.2 ⟨?_, ih hc.2⟩
        intro z hz
        rcases Mem.mem_writeByte hz with rfl | hz
        · show b < a; omega
        · exact hc.1 z hz

/-- In a canonical memory no listed address lies below the first. -/
theorem Mem.readByte_below {m : Mem} {a : Nat} (h : ∀ cell ∈ m, a < cell.1) : m.readByte a = none := by
  cases m with
  | nil => rfl
  | cons y m =>
    obtain ⟨b, yb⟩ := y
    have hb : a < b := h (b, yb) List.mem_cons_self
    have hne : a ≠ b := by omega
    simp [Mem.readByte, hb, hne, Mem.unlisted]

/-- The byte read after a write: the byte written at its address, every other byte as before. -/
theorem Mem.readByte_writeByte (m : Mem) (a b : Nat) (x : Byte) (h : m.wf = true) :
    (m.writeByte a x).readByte b = if b = a then some x else m.readByte b := by
  rw [Mem.wf_iff_pairwise] at h
  induction m with
  | nil =>
    simp only [Mem.writeByte, Mem.readByte]
    split <;> simp_all
  | cons y m ih =>
    obtain ⟨k, yk⟩ := y
    have hc := List.pairwise_cons.1 h
    simp only [Mem.writeByte]
    split
    · rename_i hak
      by_cases hba : b = a
      · simp [Mem.readByte, hba]
      · by_cases hlt : b < a
        · have h1 : b ≠ k := by omega
          have h2 : b < k := by omega
          simp [Mem.readByte, hba, hlt, h1, h2]
        · simp [Mem.readByte, hba, hlt]
    · split
      · rename_i hak
        subst hak
        by_cases hba : b = a
        · simp [Mem.readByte, hba]
        · simp [Mem.readByte, hba]
      · rename_i h1 h2
        by_cases hbk : b = k
        · have : b ≠ a := by omega
          simp [Mem.readByte, hbk]
          omega
        · by_cases hlt : b < k
          · have : b ≠ a := by omega
            simp [Mem.readByte, hbk, hlt, this]
          · simp only [Mem.readByte, hbk, hlt, if_false]
            exact ih hc.2

/-- Writing a word keeps the canonical form. -/
theorem Mem.wf_writeWord {m : Mem} (h : m.wf = true) (a : Nat) (w : Word) : (m.writeWord a w).wf = true :=
  Mem.wf_writeByte (Mem.wf_writeByte (Mem.wf_writeByte (Mem.wf_writeByte h _ _) _ _) _ _) _ _

/-- Writing a word leaves every byte outside it alone. -/
theorem Mem.readByte_writeWord_of_outside {m : Mem} (h : m.wf = true) (a b : Nat) (w : Word)
    (hb : b < a ∨ a + 4 ≤ b) : (m.writeWord a w).readByte b = m.readByte b := by
  have h0 := Mem.wf_writeByte h a (byteOf w 0)
  have h1 := Mem.wf_writeByte h0 (a + 1) (byteOf w 1)
  have h2 := Mem.wf_writeByte h1 (a + 2) (byteOf w 2)
  unfold Mem.writeWord
  rw [Mem.readByte_writeByte _ _ _ _ h2, Mem.readByte_writeByte _ _ _ _ h1, Mem.readByte_writeByte _ _ _ _ h0,
    Mem.readByte_writeByte _ _ _ _ h]
  rw [if_neg (by omega), if_neg (by omega), if_neg (by omega), if_neg (by omega)]

/-- The four bytes of a word, joined, are the word (20_memory.md R104). -/
theorem bytes_join (w : Word) : byteOf w 3 ++ byteOf w 2 ++ byteOf w 1 ++ byteOf w 0 = w := by
  apply BitVec.eq_of_getLsbD_eq
  intro i hi
  simp only [byteOf, BitVec.getLsbD_append, BitVec.getLsbD_extractLsb']
  split <;> rename_i h0
  · simp [h0]
  · split <;> rename_i h1
    · simp [h1]; congr 1; omega
    · split <;> rename_i h2
      · simp [h2]; congr 1; omega
      · have : i - 8 - 8 - 8 < 8 := by omega
        simp [this]; congr 1; omega

/-- The word read after a word is written at the same address is the word. -/
theorem Mem.readWord_writeWord_self {m : Mem} (h : m.wf = true) (a : Nat) (w : Word) :
    (m.writeWord a w).readWord a = some w := by
  have h0 := Mem.wf_writeByte h a (byteOf w 0)
  have h1 := Mem.wf_writeByte h0 (a + 1) (byteOf w 1)
  have h2 := Mem.wf_writeByte h1 (a + 2) (byteOf w 2)
  have key : ∀ j, (m.writeWord a w).readByte (a + j) =
      if j = 3 then some (byteOf w 3) else if j = 2 then some (byteOf w 2) else if j = 1 then some (byteOf w 1)
      else if j = 0 then some (byteOf w 0) else m.readByte (a + j) := by
    intro j
    unfold Mem.writeWord
    rw [Mem.readByte_writeByte _ _ _ _ h2, Mem.readByte_writeByte _ _ _ _ h1, Mem.readByte_writeByte _ _ _ _ h0,
      Mem.readByte_writeByte _ _ _ _ h]
    simp only [Nat.add_left_cancel_iff, Nat.add_eq_left]
  have k0 := key 0
  simp only [Nat.add_zero] at k0
  simp [Mem.readWord, k0, key, bytes_join]

/-- Writing a word leaves every word that does not overlap it alone. -/
theorem Mem.readWord_writeWord_of_disjoint {m : Mem} (h : m.wf = true) (a b : Nat) (w : Word)
    (hb : b + 4 ≤ a ∨ a + 4 ≤ b) : (m.writeWord a w).readWord b = m.readWord b := by
  unfold Mem.readWord
  rw [Mem.readByte_writeWord_of_outside h a b w (by omega), Mem.readByte_writeWord_of_outside h a (b + 1) w (by omega),
    Mem.readByte_writeWord_of_outside h a (b + 2) w (by omega),
    Mem.readByte_writeWord_of_outside h a (b + 3) w (by omega)]

/-- The cells of a memory after a word is written lie in the word or were there before. -/
theorem Mem.mem_writeWord {m : Mem} {a : Nat} {w : Word} {cell : Host.Cell} (h : cell ∈ m.writeWord a w) :
    (a ≤ cell.1 ∧ cell.1 < a + 4) ∨ cell ∈ m := by
  unfold Mem.writeWord at h
  rcases Mem.mem_writeByte h with rfl | h
  · left; simp
  rcases Mem.mem_writeByte h with rfl | h
  · left; simp
  rcases Mem.mem_writeByte h with rfl | h
  · left; simp
  rcases Mem.mem_writeByte h with rfl | h
  · left; simp
  exact .inr h

/-! ## Output buffers (20_memory.md R106) -/

/-- Writing one sample word keeps the canonical form. -/
theorem wf_outWrite {m : Mem} (h : m.wf = true) (v : VoiceId) (i : Nat) (c : Side) (w : Word) :
    (outWrite v i c w m).wf = true := Mem.wf_writeWord h _ _

/-- Writing a frame keeps the canonical form. -/
theorem wf_outFrame {m : Mem} (h : m.wf = true) (v : VoiceId) (i : Nat) (y : F32) : (outFrame v i y m).wf = true :=
  wf_outWrite (wf_outWrite h _ _ _ _) _ _ _ _

/-- Both words of a written frame read as its sample (45_mixer_dac.md R374). -/
theorem outRead_outFrame_self {m : Mem} (h : m.wf = true) (v : VoiceId) (i : Nat) (c : Side) (y : F32) :
    outRead v i c (outFrame v i y m) = some y := by
  have h1 := wf_outWrite h v i .left y
  cases c with
  | right => exact Mem.readWord_writeWord_self h1 _ _
  | left =>
    unfold outFrame outRead outWrite
    rw [Mem.readWord_writeWord_of_disjoint (by exact h1) _ _ _ (by simp [outAddr, Side.num])]
    exact Mem.readWord_writeWord_self h _ _

/-- The byte addresses of frame `i` of voice `v`: eight bytes from its left word. -/
theorem readByte_outFrame_of_outside {m : Mem} (h : m.wf = true) (v : VoiceId) (i b : Nat) (y : F32)
    (hb : b < outAddr v i .left ∨ outAddr v i .left + 8 ≤ b) : (outFrame v i y m).readByte b = m.readByte b := by
  have h1 := wf_outWrite h v i .left y
  have e : outAddr v i .right = outAddr v i .left + 4 := by simp [outAddr, Side.num]
  unfold outFrame
  rw [outWrite, Mem.readByte_writeWord_of_outside h1 _ _ _ (by rw [e]; omega), outWrite,
    Mem.readByte_writeWord_of_outside h _ _ _ (by omega)]

/-- A word of another frame, of this voice or another, lies outside the eight bytes of frame `i` of voice `v`. -/
theorem outAddr_far (v u : VoiceId) (i k : Nat) (c : Side) (hi : i < 8192) (hk : k < 8192) (hne : u ≠ v ∨ k ≠ i) :
    outAddr u k c + 4 ≤ outAddr v i .left ∨ outAddr v i .left + 8 ≤ outAddr u k c := by
  have hc : c.num ≤ 1 := by cases c <;> simp [Side.num]
  have hl : Side.left.num = 0 := rfl
  rcases Nat.lt_trichotomy u.val v.val with huv | huv | huv
  · have h := Nat.mul_le_mul_left 0x10000 (Nat.succ_le_of_lt huv)
    left; simp only [outAddr, hl]; omega
  · have hki : k ≠ i := hne.resolve_left fun h => h (Fin.ext huv)
    simp only [outAddr, hl, huv]; omega
  · have h := Nat.mul_le_mul_left 0x10000 (Nat.succ_le_of_lt huv)
    right; simp only [outAddr, hl]; omega

/-- Writing a frame leaves every word of every other frame, of this voice or another, alone, as long as both lie in
their buffers. -/
theorem outRead_outFrame_of_ne {m : Mem} (h : m.wf = true) (v u : VoiceId) (i k : Nat) (c : Side) (y : F32)
    (hi : i < 8192) (hk : k < 8192) (hne : u ≠ v ∨ k ≠ i) : outRead u k c (outFrame v i y m) = outRead u k c m := by
  have h1 := wf_outWrite h v i .left y
  have far := outAddr_far v u i k c hi hk hne
  have e : outAddr v i .right = outAddr v i .left + 4 := by simp [outAddr, Side.num]
  unfold outFrame outRead
  rw [outWrite, Mem.readWord_writeWord_of_disjoint h1 _ _ _ (by rw [e]; omega), outWrite,
    Mem.readWord_writeWord_of_disjoint h _ _ _ (by omega)]

/-- The cells of a memory after a frame is written lie in the frame or were there before. -/
theorem mem_outFrame {m : Mem} {v : VoiceId} {i : Nat} {y : F32} {cell : Host.Cell} (h : cell ∈ outFrame v i y m) :
    (outAddr v i .left ≤ cell.1 ∧ cell.1 < outAddr v i .left + 8) ∨ cell ∈ m := by
  have e : outAddr v i .right = outAddr v i .left + 4 := by simp [outAddr, Side.num]
  unfold outFrame outWrite at h
  rcases Mem.mem_writeWord h with h | h
  · left; omega
  · rcases Mem.mem_writeWord h with h | h
    · left; omega
    · exact .inr h

end Sys2Proof.Machine
end

