-- ==== Sys2Proof/Laws/State.lean ====
section
/-! SUPPORT. Field lemmas of the state updates: one for each field an update could touch, so that no later proof unfolds
a record update. -/

namespace Sys2Proof.Machine

/-! ## Voice slots -/

@[simp] theorem setVoice_cfg (s : State) (v : VoiceId) (x : Voice) : (setVoice s v x).cfg = s.cfg := rfl
@[simp] theorem setVoice_params (s : State) (v : VoiceId) (x : Voice) : (setVoice s v x).params = s.params := rfl
@[simp] theorem setVoice_busErr (s : State) (v : VoiceId) (x : Voice) : (setVoice s v x).busErr = s.busErr := rfl
@[simp] theorem setVoice_mem (s : State) (v : VoiceId) (x : Voice) : (setVoice s v x).mem = s.mem := rfl
@[simp] theorem setVoice_inbox (s : State) (v : VoiceId) (x : Voice) : (setVoice s v x).inbox = s.inbox := rfl
@[simp] theorem setVoice_reply (s : State) (v : VoiceId) (x : Voice) : (setVoice s v x).reply = s.reply := rfl
@[simp] theorem setVoice_freeSerial (s : State) (v : VoiceId) (x : Voice) :
    (setVoice s v x).freeSerial = s.freeSerial := rfl

/-- A slot holds what was last put there. -/
@[simp] theorem getVoice_setVoice_self (s : State) (v : VoiceId) (x : Voice) : getVoice (setVoice s v x) v = x := by
  simp [getVoice, setVoice]

/-- Putting a voice in one slot leaves every other slot alone. -/
theorem getVoice_setVoice_of_ne (s : State) (v u : VoiceId) (x : Voice) (h : u ≠ v) :
    getVoice (setVoice s v x) u = getVoice s u := by
  have h' : v.val ≠ u.val := fun e => h (Fin.ext e.symm)
  simp [getVoice, setVoice, h']

/-- Both slot lemmas in one. -/
theorem getVoice_setVoice (s : State) (v u : VoiceId) (x : Voice) :
    getVoice (setVoice s v x) u = if u = v then x else getVoice s u := by
  by_cases h : u = v
  · subst h; simp
  · simp [h, getVoice_setVoice_of_ne s v u x h]

/-- Putting back what a slot holds changes nothing. -/
@[simp] theorem setVoice_getVoice (s : State) (v : VoiceId) : setVoice s v (getVoice s v) = s := by
  simp [setVoice, getVoice]

/-- `getVoice` reads the slots and nothing else. -/
theorem getVoice_congr {s t : State} (h : s.voices = t.voices) (v : VoiceId) : getVoice s v = getVoice t v := by
  simp [getVoice, h]

/-- Two states with the same slots under `getVoice` have the same slots. -/
theorem voices_ext {s t : State} (h : ∀ v : VoiceId, getVoice s v = getVoice t v) : s.voices = t.voices := by
  apply Vector.ext
  intro i hi
  exact h ⟨i, hi⟩

@[simp] theorem getVoice_with_reply (s : State) (x : Option Word) (v : VoiceId) :
    getVoice { s with reply := x } v = getVoice s v := rfl
@[simp] theorem getVoice_with_busErr (s : State) (x : Bool) (v : VoiceId) :
    getVoice { s with busErr := x } v = getVoice s v := rfl
@[simp] theorem getVoice_with_params (s : State) (x : Params) (v : VoiceId) :
    getVoice { s with params := x } v = getVoice s v := rfl
@[simp] theorem getVoice_with_mem (s : State) (x : Mem) (v : VoiceId) :
    getVoice { s with mem := x } v = getVoice s v := rfl
@[simp] theorem getVoice_with_inbox (s : State) (x : List Event) (v : VoiceId) :
    getVoice { s with inbox := x } v = getVoice s v := rfl
@[simp] theorem getVoice_with_freeSerial (s : State) (x : Nat) (v : VoiceId) :
    getVoice { s with freeSerial := x } v = getVoice s v := rfl

/-! ## The Parameter Set -/

/-- A register holds what was last put there. -/
@[simp] theorem Params.get_set_self (ps : Params) (p : Param) (x : Int) : (ps.set p x).get p = x := by
  cases p <;> rfl

/-- Writing one register leaves every other register alone. -/
theorem Params.get_set_of_ne (ps : Params) (p q : Param) (x : Int) (h : q ≠ p) : (ps.set p x).get q = ps.get q := by
  cases p <;> cases q <;> first | rfl | exact absurd rfl h

/-- Both register lemmas in one. -/
theorem Params.get_set (ps : Params) (p q : Param) (x : Int) :
    (ps.set p x).get q = if q = p then x else ps.get q := by
  by_cases h : q = p
  · subst h; simp
  · simp [h, Params.get_set_of_ne ps p q x h]

/-- Two Parameter Sets with the same registers are equal. -/
theorem Params.ext_get {ps qs : Params} (h : ∀ p : Param, ps.get p = qs.get p) : ps = qs := by
  obtain ⟨⟨_, _, _, _, _, _, _, _, _, _⟩, ⟨_, _, _, _, _, _, _, _, _, _⟩, ⟨_, _, _⟩, ⟨_, _, _, _, _, _, _, _⟩, _, _⟩ := ps
  obtain ⟨⟨_, _, _, _, _, _, _, _, _, _⟩, ⟨_, _, _, _, _, _, _, _, _, _⟩, ⟨_, _, _⟩, ⟨_, _, _, _, _, _, _, _⟩, _, _⟩ := qs
  simp only [Params.mk.injEq, ToneParams.mk.injEq, TriParams.mk.injEq, NoiseParams.mk.injEq]
  refine ⟨⟨h .ch1En, h .ch1Detune, h .ch1Vol, h .ch1EnvEn, h .ch1EnvLoop, h .ch1EnvLen, h .ch1Duty, h .ch1SweepEn,
      h .ch1SweepAmt, h .ch1SweepRate⟩,
    ⟨h .ch2En, h .ch2Detune, h .ch2Vol, h .ch2EnvEn, h .ch2EnvLoop, h .ch2EnvLen, h .ch2Duty, h .ch2SweepEn,
      h .ch2SweepAmt, h .ch2SweepRate⟩,
    ⟨h .ch3En, h .ch3Detune, h .ch3Vol⟩,
    ⟨h .ch4En, h .ch4Vol, h .ch4EnvEn, h .ch4EnvLoop, h .ch4EnvLen, h .ch4NoiseMode, h .ch4NoiseFreqMode,
      h .ch4NoiseFreq⟩, h .masterVol, h .vibrato⟩

/-- The range of every register is non-empty (10_state.md R43). -/
theorem Param.lo_le_hi (p : Param) : Param.lo p ≤ Param.hi p := by cases p <;> decide

/-- What a write stores is a legal value (R44, R182). -/
theorem paramStored_legal (p : Param) (d : Word) :
    Param.lo p ≤ paramStored p d ∧ paramStored p d ≤ Param.hi p := by
  have := Param.lo_le_hi p
  unfold paramStored clamp
  split
  · omega
  · split <;> omega

/-- A clamped value is the value, brought up to `lo` and then down to `hi`. -/
theorem clamp_eq_max_min (v lo hi : Int) (h : lo ≤ hi) : clamp v lo hi = max lo (min v hi) := by
  unfold clamp; split
  · omega
  · split <;> omega

/-! ## The reset state -/

@[simp] theorem resetWith_cfg (c : Config) : (State.resetWith c).cfg = c := rfl

/-- Every slot of the reset state is a reset slot. -/
@[simp] theorem getVoice_resetWith (c : Config) (v : VoiceId) :
    getVoice (State.resetWith c) v = Voice.reset ⟨[], 0⟩ := by
  simp [getVoice, State.resetWith]

@[simp] theorem blockReset_cfg (s : State) : (blockReset s).cfg = s.cfg := rfl
@[simp] theorem blockReset_params (s : State) : (blockReset s).params = Params.reset := rfl
@[simp] theorem blockReset_busErr (s : State) : (blockReset s).busErr = false := rfl
@[simp] theorem blockReset_mem (s : State) : (blockReset s).mem = [] := rfl
@[simp] theorem blockReset_inbox (s : State) : (blockReset s).inbox = s.inbox := rfl

/-- Every slot is reset by block reset, with its dither feed kept. -/
@[simp] theorem getVoice_blockReset (s : State) (v : VoiceId) :
    getVoice (blockReset s) v = Voice.reset (getVoice s v).feed := by
  simp [getVoice, blockReset]

/-- A slot of a state written out field by field. -/
@[simp] theorem getVoice_mk (c : Config) (p : Params) (b : Bool) (vs : Vector Voice 16) (m : Mem) (i : List Event)
    (r : Option Word) (n : Nat) (v : VoiceId) : getVoice ⟨c, p, b, vs, m, i, r, n⟩ v = vs[v.val] := rfl

/-- The voices of a state, read one at a time, are its slots. -/
@[simp] theorem voices_getElem (s : State) (v : VoiceId) : s.voices[v.val]'v.isLt = getVoice s v := rfl

end Sys2Proof.Machine
end

