-- ==== Sys2Proof/Laws/Ops.lean ====
section
/-! SUPPORT. What each shared operation and each operation of the block can do, said once: the equations of `exec`, and
one inversion lemma for all of it. -/

namespace Sys2Proof

/-- Case analysis on an operation with the 33 register writes and the 33 register reads taken together. -/
theorem Instr.byKind {motive : Instr → Prop} (hw : ∀ p d, motive (.wrParam p d)) (hr : ∀ p, motive (.rdParam p))
    (hWrRsv : ∀ a d, motive (.wrRsv a d))
    (hRdRsv : ∀ a, motive (.rdRsv a))
    (hWrGstatus : ∀ d, motive (.wrGstatus d))
    (hRdGstatus : motive (.rdGstatus))
    (hWrGinfo : ∀ d, motive (.wrGinfo d))
    (hRdGinfo : motive (.rdGinfo))
    (hVinit : ∀ v, motive (.vinit v))
    (hVrender : ∀ v n, motive (.vrender v n))
    (hVfree : ∀ v, motive (.vfree v))
    (hCmdIllegal : ∀ v w, motive (.cmdIllegal v w))
    (hRdCmd : ∀ v, motive (.rdCmd v))
    (hRdStatus : ∀ v, motive (.rdStatus v))
    (hWrStatus : ∀ v d, motive (.wrStatus v d))
    (hWrFreq : ∀ v d, motive (.wrFreq v d))
    (hRdFreq : ∀ v, motive (.rdFreq v))
    (hRdOut : ∀ v i c, motive (.rdOut v i c))
    (hBusErr : ∀ t, motive (.busErr t))
    (i : Instr) : motive i := by
  cases i with
  | wrCh1En d => exact hw .ch1En d
  | wrCh1Detune d => exact hw .ch1Detune d
  | wrCh1Vol d => exact hw .ch1Vol d
  | wrCh1EnvEn d => exact hw .ch1EnvEn d
  | wrCh1EnvLoop d => exact hw .ch1EnvLoop d
  | wrCh1EnvLen d => exact hw .ch1EnvLen d
  | wrCh1Duty d => exact hw .ch1Duty d
  | wrCh1SweepEn d => exact hw .ch1SweepEn d
  | wrCh1SweepAmt d => exact hw .ch1SweepAmt d
  | wrCh1SweepRate d => exact hw .ch1SweepRate d
  | wrCh2En d => exact hw .ch2En d
  | wrCh2Detune d => exact hw .ch2Detune d
  | wrCh2Vol d => exact hw .ch2Vol d
  | wrCh2EnvEn d => exact hw .ch2EnvEn d
  | wrCh2EnvLoop d => exact hw .ch2EnvLoop d
  | wrCh2EnvLen d => exact hw .ch2EnvLen d
  | wrCh2Duty d => exact hw .ch2Duty d
  | wrCh2SweepEn d => exact hw .ch2SweepEn d
  | wrCh2SweepAmt d => exact hw .ch2SweepAmt d
  | wrCh2SweepRate d => exact hw .ch2SweepRate d
  | wrCh3En d => exact hw .ch3En d
  | wrCh3Detune d => exact hw .ch3Detune d
  | wrCh3Vol d => exact hw .ch3Vol d
  | wrCh4En d => exact hw .ch4En d
  | wrCh4Vol d => exact hw .ch4Vol d
  | wrCh4EnvEn d => exact hw .ch4EnvEn d
  | wrCh4EnvLoop d => exact hw .ch4EnvLoop d
  | wrCh4EnvLen d => exact hw .ch4EnvLen d
  | wrCh4NoiseMode d => exact hw .ch4NoiseMode d
  | wrCh4NoiseFreqMode d => exact hw .ch4NoiseFreqMode d
  | wrCh4NoiseFreq d => exact hw .ch4NoiseFreq d
  | wrMasterVol d => exact hw .masterVol d
  | wrVibrato d => exact hw .vibrato d
  | rdCh1En => exact hr .ch1En
  | rdCh1Detune => exact hr .ch1Detune
  | rdCh1Vol => exact hr .ch1Vol
  | rdCh1EnvEn => exact hr .ch1EnvEn
  | rdCh1EnvLoop => exact hr .ch1EnvLoop
  | rdCh1EnvLen => exact hr .ch1EnvLen
  | rdCh1Duty => exact hr .ch1Duty
  | rdCh1SweepEn => exact hr .ch1SweepEn
  | rdCh1SweepAmt => exact hr .ch1SweepAmt
  | rdCh1SweepRate => exact hr .ch1SweepRate
  | rdCh2En => exact hr .ch2En
  | rdCh2Detune => exact hr .ch2Detune
  | rdCh2Vol => exact hr .ch2Vol
  | rdCh2EnvEn => exact hr .ch2EnvEn
  | rdCh2EnvLoop => exact hr .ch2EnvLoop
  | rdCh2EnvLen => exact hr .ch2EnvLen
  | rdCh2Duty => exact hr .ch2Duty
  | rdCh2SweepEn => exact hr .ch2SweepEn
  | rdCh2SweepAmt => exact hr .ch2SweepAmt
  | rdCh2SweepRate => exact hr .ch2SweepRate
  | rdCh3En => exact hr .ch3En
  | rdCh3Detune => exact hr .ch3Detune
  | rdCh3Vol => exact hr .ch3Vol
  | rdCh4En => exact hr .ch4En
  | rdCh4Vol => exact hr .ch4Vol
  | rdCh4EnvEn => exact hr .ch4EnvEn
  | rdCh4EnvLoop => exact hr .ch4EnvLoop
  | rdCh4EnvLen => exact hr .ch4EnvLen
  | rdCh4NoiseMode => exact hr .ch4NoiseMode
  | rdCh4NoiseFreqMode => exact hr .ch4NoiseFreqMode
  | rdCh4NoiseFreq => exact hr .ch4NoiseFreq
  | rdMasterVol => exact hr .masterVol
  | rdVibrato => exact hr .vibrato
  | wrRsv a d => exact hWrRsv a d
  | rdRsv a => exact hRdRsv a
  | wrGstatus d => exact hWrGstatus d
  | rdGstatus => exact hRdGstatus
  | wrGinfo d => exact hWrGinfo d
  | rdGinfo => exact hRdGinfo
  | vinit v => exact hVinit v
  | vrender v n => exact hVrender v n
  | vfree v => exact hVfree v
  | cmdIllegal v w => exact hCmdIllegal v w
  | rdCmd v => exact hRdCmd v
  | rdStatus v => exact hRdStatus v
  | wrStatus v d => exact hWrStatus v d
  | wrFreq v d => exact hWrFreq v d
  | rdFreq v => exact hRdFreq v
  | rdOut v i c => exact hRdOut v i c
  | busErr t => exact hBusErr t

namespace Machine

/-! ## Equations of `exec` -/

/-- A register write, for every register. -/
@[simp] theorem exec_wrParam (p : Param) (d : Word) (s : State) : exec (.wrParam p d) s = writeParam p d s := by
  cases p <;> rfl

/-- A register read, for every register. -/
@[simp] theorem exec_rdParam (p : Param) (s : State) : exec (.rdParam p) s = readParam p s := by
  cases p <;> rfl

@[simp] theorem exec_wrRsv (a : Word) (d : Word) (s : State) : exec (.wrRsv a d) s = execWrRsv a d s := rfl
@[simp] theorem exec_rdRsv (a : Word) (s : State) : exec (.rdRsv a) s = execRdRsv a s := rfl
@[simp] theorem exec_wrGstatus (d : Word) (s : State) : exec (.wrGstatus d) s = execWrGstatus d s := rfl
@[simp] theorem exec_rdGstatus (s : State) : exec .rdGstatus s = execRdGstatus s := rfl
@[simp] theorem exec_wrGinfo (d : Word) (s : State) : exec (.wrGinfo d) s = execWrGinfo d s := rfl
@[simp] theorem exec_rdGinfo (s : State) : exec .rdGinfo s = execRdGinfo s := rfl
@[simp] theorem exec_vinit (v : VoiceId) (s : State) : exec (.vinit v) s = execVinit v s := rfl
@[simp] theorem exec_vrender (v : VoiceId) (n : BitVec 16) (s : State) : exec (.vrender v n) s = execVrender v n s := rfl
@[simp] theorem exec_vfree (v : VoiceId) (s : State) : exec (.vfree v) s = execVfree v s := rfl
@[simp] theorem exec_cmdIllegal (v : VoiceId) (w : Word) (s : State) : exec (.cmdIllegal v w) s = execCmdIllegal v w s := rfl
@[simp] theorem exec_rdCmd (v : VoiceId) (s : State) : exec (.rdCmd v) s = execRdCmd v s := rfl
@[simp] theorem exec_rdStatus (v : VoiceId) (s : State) : exec (.rdStatus v) s = execRdStatus v s := rfl
@[simp] theorem exec_wrStatus (v : VoiceId) (d : Word) (s : State) : exec (.wrStatus v d) s = execWrStatus v d s := rfl
@[simp] theorem exec_wrFreq (v : VoiceId) (d : Word) (s : State) : exec (.wrFreq v d) s = execWrFreq v d s := rfl
@[simp] theorem exec_rdFreq (v : VoiceId) (s : State) : exec (.rdFreq v) s = execRdFreq v s := rfl
@[simp] theorem exec_rdOut (v : VoiceId) (i : BitVec 13) (c : Side) (s : State) : exec (.rdOut v i c) s = execRdOut v i c s := rfl
@[simp] theorem exec_busErr (t : Txn) (s : State) : exec (.busErr t) s = execBusErr t s := rfl

/-- A present voice's operation runs on the slot it names. -/
theorem onVoice_present {v : VoiceId} {dir : Dir} {s : State} {k : Voice → Out} (h : v.present s.cfg = true) :
    onVoice v dir s k = k (getVoice s v) := by
  simp [onVoice, h]

/-- An absent voice's operation is a bus error (30_encoding.md R145). -/
theorem onVoice_absent {v : VoiceId} {dir : Dir} {s : State} {k : Voice → Out} (h : v.present s.cfg = false) :
    onVoice v dir s k = busError dir s := by
  simp [onVoice, h]

/-- A completed write or command gives a next state, its reply empty. -/
theorem done_eq (s : State) : done s = .next { s with reply := none } := rfl

/-- A completed read gives a next state. -/
theorem answer_eq (w : Word) (s : State) : answer w s = .next { s with reply := some w } := rfl

/-- A bus error always gives a next state. -/
theorem busError_eq (dir : Dir) (s : State) :
    busError dir s = .next { s with busErr := true, reply := match dir with | .r => some 0#32 | .w => none } := by
  cases dir <;> rfl

/-- What a raised error leaves of the voice: its error code, the first one kept (60_exceptions.md R404). -/
theorem raiseError_eq (code : ErrCode) (v : VoiceId) (s : State) :
    raiseError code v s = .next { setVoice s v { getVoice s v with err := errAfterRaise code (getVoice s v).err } with
      reply := none } := rfl

/-! ## Everything an operation can do -/

/-- The ways an operation gives a next state. -/
inductive Effect (i : Instr) (s : State) : State → Prop where
  | quiet (r : Option Word) : Effect i s { s with reply := r }
  | wroteParam (p : Param) (d : Word) (hi : i = .wrParam p d) :
      Effect i s { s with params := s.params.set p (paramStored p d), reply := none }
  | wroteGstatus (d : Word) (hi : i = .wrGstatus d) :
      Effect i s { s with busErr := busErrAfterWrite d s.busErr, reply := none }
  | busError (r : Option Word) (hi : (∃ t, i = .busErr t) ∨ i.wf s.cfg = false) :
      Effect i s { s with busErr := true, reply := r }
  | wroteFreq (v : VoiceId) (d : Word) (hi : i = .wrFreq v d) (hv : v.present s.cfg = true) :
      Effect i s { setVoice s v { getVoice s v with freq := d } with reply := none }
  | created (v : VoiceId) (hi : i = .vinit v) (hv : v.present s.cfg = true) :
      Effect i s { setVoice s v { getVoice s v with alive := true, err := .none, hid := VoiceState.init s.cfg } with
        reply := none }
  | freed (v : VoiceId) (hi : i = .vfree v) (hv : v.present s.cfg = true) (ha : (getVoice s v).alive = true) :
      Effect i s { setVoice s v { getVoice s v with alive := false, hid := VoiceState.free s.freeSerial } with
        freeSerial := s.freeSerial + 1, reply := none }
  | raised (v : VoiceId) (code : ErrCode) (hi : (∃ w, i = .cmdIllegal v w) ∨ ∃ n, i = .vrender v n)
      (hv : v.present s.cfg = true) (hc : code ≠ .none) :
      Effect i s { setVoice s v { getVoice s v with err := errAfterRaise code (getVoice s v).err } with reply := none }
  | rendered (v : VoiceId) (n : BitVec 16) (hi : i = .vrender v n) (hv : v.present s.cfg = true)
      (ha : (getVoice s v).alive = true) (h0 : n.toNat ≠ 0) (hn : n.toNat ≤ s.cfg.blockFrames)
      (hf : validFreq (getVoice s v).freq = true) :
      Effect i s
        { setVoice s v { getVoice s v with
            hid := (render s.cfg s.params v n.toNat (getVoice s v) s.mem).hid
            feed := (render s.cfg s.params v n.toNat (getVoice s v) s.mem).feed } with
          mem := (render s.cfg s.params v n.toNat (getVoice s v) s.mem).mem, reply := none }

/-- An operation on a voice: either what it does on a present slot, or a bus error. -/
theorem onVoice_next {i : Instr} {v : VoiceId} {dir : Dir} {s t : State} {k : Voice → Out}
    (hwf : v.present s.cfg = false → i.wf s.cfg = false)
    (h : onVoice v dir s k = .next t) (hk : v.present s.cfg = true → k (getVoice s v) = .next t → Effect i s t) :
    Effect i s t := by
  cases hp : v.present s.cfg with
  | true => rw [onVoice_present hp] at h; exact hk hp h
  | false =>
    rw [onVoice_absent hp, busError_eq] at h
    cases h
    exact .busError _ (.inr (hwf hp))

/-- Everything an operation can do when it gives a next state. -/
theorem exec_effect {i : Instr} {s t : State} (h : exec i s = .next t) : Effect i s t := by
  induction i using Instr.byKind with
  | hw p d => rw [exec_wrParam] at h; cases h; exact .wroteParam p d rfl
  | hr p => rw [exec_rdParam] at h; cases h; exact .quiet _
  | hWrRsv a d => cases h; exact .quiet _
  | hRdRsv a => cases h; exact .quiet _
  | hWrGstatus d => cases h; exact .wroteGstatus d rfl
  | hRdGstatus => cases h; exact .quiet _
  | hWrGinfo d => cases h; exact .quiet _
  | hRdGinfo => cases h; exact .quiet _
  | hVinit v =>
    rw [exec_vinit, execVinit] at h
    exact onVoice_next (by intro hp; simpa [Instr.wf] using hp) h fun hp h => by cases h; exact .created v rfl hp
  | hVrender v n =>
    rw [exec_vrender, execVrender] at h
    refine onVoice_next (by intro hp; simpa [Instr.wf] using hp) h fun hp h => ?_
    by_cases ha : (getVoice s v).alive = false
    · rw [if_pos ha] at h
      cases h
      exact .raised v .voiceDead (.inr ⟨n, rfl⟩) hp (by decide)
    rw [if_neg ha] at h
    by_cases hn : s.cfg.blockFrames < n.toNat
    · rw [frameCount, if_pos hn] at h
      cases h
      exact .raised v .badCount (.inr ⟨n, rfl⟩) hp (by decide)
    rw [frameCount, if_neg hn] at h
    by_cases h0 : n.toNat = 0
    · rw [if_pos h0] at h
      cases h
      exact .quiet _
    rw [if_neg h0] at h
    by_cases hf : validFreq (getVoice s v).freq = false
    · rw [if_pos hf] at h
      cases h
      exact .raised v .badFreq (.inr ⟨n, rfl⟩) hp (by decide)
    rw [if_neg hf] at h
    cases h
    exact .rendered v n rfl hp (by simpa using ha) h0 (by omega) (by simpa using hf)
  | hVfree v =>
    rw [exec_vfree, execVfree] at h
    refine onVoice_next (by intro hp; simpa [Instr.wf] using hp) h fun hp h => ?_
    simp only at h
    split at h
    · rename_i ha; cases h; exact .freed v rfl hp ha
    · cases h; exact .quiet _
  | hCmdIllegal v w =>
    rw [exec_cmdIllegal, execCmdIllegal] at h
    exact onVoice_next (by intro hp; simp [Instr.wf, hp]) h fun hp h => by
      cases h; exact .raised v .illegalCmd (.inl ⟨w, rfl⟩) hp (by decide)
  | hRdCmd v =>
    rw [exec_rdCmd, execRdCmd] at h
    exact onVoice_next (by intro hp; simpa [Instr.wf] using hp) h fun _ h => by cases h; exact .quiet _
  | hRdStatus v =>
    rw [exec_rdStatus, execRdStatus] at h
    exact onVoice_next (by intro hp; simpa [Instr.wf] using hp) h fun _ h => by cases h; exact .quiet _
  | hWrStatus v d =>
    rw [exec_wrStatus, execWrStatus] at h
    exact onVoice_next (by intro hp; simpa [Instr.wf] using hp) h fun _ h => by cases h; exact .quiet _
  | hWrFreq v d =>
    rw [exec_wrFreq, execWrFreq] at h
    exact onVoice_next (by intro hp; simpa [Instr.wf] using hp) h fun hp h => by cases h; exact .wroteFreq v d rfl hp
  | hRdFreq v =>
    rw [exec_rdFreq, execRdFreq] at h
    exact onVoice_next (by intro hp; simpa [Instr.wf] using hp) h fun _ h => by cases h; exact .quiet _
  | hRdOut v j c =>
    rw [exec_rdOut, execRdOut] at h
    refine onVoice_next (by intro hp; simp [Instr.wf, hp]) h fun hp h => ?_
    by_cases hj : j.toNat < s.cfg.blockFrames
    · rw [if_pos hj] at h
      split at h
      · cases h; exact .quiet _
      · cases h
    · rw [if_neg hj, busError_eq] at h
      cases h
      exact .busError _ (.inr (by simp [Instr.wf, hj]))
  | hBusErr t =>
    have h' : busError t.dir s = _ := h
    rw [busError_eq] at h'
    cases h'
    exact .busError _ (.inl ⟨t, rfl⟩)

/-- A legal configuration lets the outcome through. -/
theorem guardConfig_of_wf {s : State} {o : Out} (h : s.cfg.wf = true) : guardConfig s o = o := if_pos h

/-- A next state comes from a legal configuration. -/
theorem guardConfig_next {s t : State} {o : Out} (h : guardConfig s o = .next t) : s.cfg.wf = true ∧ o = .next t := by
  unfold guardConfig at h
  split at h
  · exact ⟨‹_›, h⟩
  · cases h

/-- A step gives a next state in three ways: idle, a transaction, or block reset. -/
theorem step_cases {s t : State} (h : step s = .next t) :
    s.cfg.wf = true ∧
      ((s.inbox = [] ∧ t = s) ∨
        (∃ x rest, s.inbox = .txn x :: rest ∧ exec (decode s.cfg x) { s with inbox := rest } = .next t) ∨
        (∃ rest, s.inbox = .reset :: rest ∧ t = { blockReset { s with inbox := rest } with reply := none })) := by
  unfold step at h
  split at h
  · rename_i hi
    obtain ⟨hc, h⟩ := guardConfig_next h
    cases h
    exact ⟨hc, .inl ⟨hi, rfl⟩⟩
  · rename_i x rest hi
    obtain ⟨hc, h⟩ := guardConfig_next h
    exact ⟨hc, .inr (.inl ⟨x, rest, hi, h⟩)⟩
  · rename_i rest hi
    obtain ⟨hc, h⟩ := guardConfig_next h
    cases h
    exact ⟨hc, .inr (.inr ⟨rest, hi, rfl⟩)⟩

end Machine

end Sys2Proof
end

