-- ==== Sys2Proof/Laws/PerInstr.lean ====
section
/-! SUPPORT. The family of statements made for each operation: its encoding matches its row of spec/opcode_table.json. -/

namespace Sys2Proof.Laws

/-- What a row of the opcode table says of a transaction: its direction, the match and mask of its address word, and, for
a CMD row, the match and mask of its data word. -/
structure TableRow.Row where
  dir : Option Dir
  addrMatch : Word
  addrMask : Word
  dataMatch : Word
  dataMask : Word
deriving DecidableEq, Repr

/-- The data word of a transaction; a read has none. -/
def TableRow.data : Txn → Word
  | .read _ => 0#32
  | .write _ d => d

/-- The transaction agrees with the row. -/
def TableRow.Row.accepts (r : TableRow.Row) (t : Txn) : Prop :=
  (∀ d, r.dir = some d → t.dir = d) ∧ t.addr &&& r.addrMask = r.addrMatch ∧
    TableRow.data t &&& r.dataMask = r.dataMatch

/-- The row of an operation.  The table's WR.RSV and RD.RSV rows list the reserved word of a voice block beside a mask
that leaves it out; here the mask takes it in. -/
def TableRow.row : Instr → TableRow.Row
  | .wrCh1En _ => ⟨some .w, 0x00000000#32, 0xFFFFFFFF#32, 0x00000000#32, 0x00000000#32⟩
  | .wrCh1Detune _ => ⟨some .w, 0x00000004#32, 0xFFFFFFFF#32, 0x00000000#32, 0x00000000#32⟩
  | .wrCh1Vol _ => ⟨some .w, 0x00000008#32, 0xFFFFFFFF#32, 0x00000000#32, 0x00000000#32⟩
  | .wrCh1EnvEn _ => ⟨some .w, 0x0000000C#32, 0xFFFFFFFF#32, 0x00000000#32, 0x00000000#32⟩
  | .wrCh1EnvLoop _ => ⟨some .w, 0x00000010#32, 0xFFFFFFFF#32, 0x00000000#32, 0x00000000#32⟩
  | .wrCh1EnvLen _ => ⟨some .w, 0x00000014#32, 0xFFFFFFFF#32, 0x00000000#32, 0x00000000#32⟩
  | .wrCh1Duty _ => ⟨some .w, 0x00000018#32, 0xFFFFFFFF#32, 0x00000000#32, 0x00000000#32⟩
  | .wrCh1SweepEn _ => ⟨some .w, 0x0000001C#32, 0xFFFFFFFF#32, 0x00000000#32, 0x00000000#32⟩
  | .wrCh1SweepAmt _ => ⟨some .w, 0x00000020#32, 0xFFFFFFFF#32, 0x00000000#32, 0x00000000#32⟩
  | .wrCh1SweepRate _ => ⟨some .w, 0x00000024#32, 0xFFFFFFFF#32, 0x00000000#32, 0x00000000#32⟩
  | .wrCh2En _ => ⟨some .w, 0x00000040#32, 0xFFFFFFFF#32, 0x00000000#32, 0x00000000#32⟩
  | .wrCh2Detune _ => ⟨some .w, 0x00000044#32, 0xFFFFFFFF#32, 0x00000000#32, 0x00000000#32⟩
  | .wrCh2Vol _ => ⟨some .w, 0x00000048#32, 0xFFFFFFFF#32, 0x00000000#32, 0x00000000#32⟩
  | .wrCh2EnvEn _ => ⟨some .w, 0x0000004C#32, 0xFFFFFFFF#32, 0x00000000#32, 0x00000000#32⟩
  | .wrCh2EnvLoop _ => ⟨some .w, 0x00000050#32, 0xFFFFFFFF#32, 0x00000000#32, 0x00000000#32⟩
  | .wrCh2EnvLen _ => ⟨some .w, 0x00000054#32, 0xFFFFFFFF#32, 0x00000000#32, 0x00000000#32⟩
  | .wrCh2Duty _ => ⟨some .w, 0x00000058#32, 0xFFFFFFFF#32, 0x00000000#32, 0x00000000#32⟩
  | .wrCh2SweepEn _ => ⟨some .w, 0x0000005C#32, 0xFFFFFFFF#32, 0x00000000#32, 0x00000000#32⟩
  | .wrCh2SweepAmt _ => ⟨some .w, 0x00000060#32, 0xFFFFFFFF#32, 0x00000000#32, 0x00000000#32⟩
  | .wrCh2SweepRate _ => ⟨some .w, 0x00000064#32, 0xFFFFFFFF#32, 0x00000000#32, 0x00000000#32⟩
  | .wrCh3En _ => ⟨some .w, 0x00000080#32, 0xFFFFFFFF#32, 0x00000000#32, 0x00000000#32⟩
  | .wrCh3Detune _ => ⟨some .w, 0x00000084#32, 0xFFFFFFFF#32, 0x00000000#32, 0x00000000#32⟩
  | .wrCh3Vol _ => ⟨some .w, 0x00000088#32, 0xFFFFFFFF#32, 0x00000000#32, 0x00000000#32⟩
  | .wrCh4En _ => ⟨some .w, 0x000000C0#32, 0xFFFFFFFF#32, 0x00000000#32, 0x00000000#32⟩
  | .wrCh4Vol _ => ⟨some .w, 0x000000C4#32, 0xFFFFFFFF#32, 0x00000000#32, 0x00000000#32⟩
  | .wrCh4EnvEn _ => ⟨some .w, 0x000000C8#32, 0xFFFFFFFF#32, 0x00000000#32, 0x00000000#32⟩
  | .wrCh4EnvLoop _ => ⟨some .w, 0x000000CC#32, 0xFFFFFFFF#32, 0x00000000#32, 0x00000000#32⟩
  | .wrCh4EnvLen _ => ⟨some .w, 0x000000D0#32, 0xFFFFFFFF#32, 0x00000000#32, 0x00000000#32⟩
  | .wrCh4NoiseMode _ => ⟨some .w, 0x000000D4#32, 0xFFFFFFFF#32, 0x00000000#32, 0x00000000#32⟩
  | .wrCh4NoiseFreqMode _ => ⟨some .w, 0x000000D8#32, 0xFFFFFFFF#32, 0x00000000#32, 0x00000000#32⟩
  | .wrCh4NoiseFreq _ => ⟨some .w, 0x000000DC#32, 0xFFFFFFFF#32, 0x00000000#32, 0x00000000#32⟩
  | .wrMasterVol _ => ⟨some .w, 0x000000E0#32, 0xFFFFFFFF#32, 0x00000000#32, 0x00000000#32⟩
  | .wrVibrato _ => ⟨some .w, 0x000000E4#32, 0xFFFFFFFF#32, 0x00000000#32, 0x00000000#32⟩
  | .rdCh1En => ⟨some .r, 0x00000000#32, 0xFFFFFFFF#32, 0x00000000#32, 0x00000000#32⟩
  | .rdCh1Detune => ⟨some .r, 0x00000004#32, 0xFFFFFFFF#32, 0x00000000#32, 0x00000000#32⟩
  | .rdCh1Vol => ⟨some .r, 0x00000008#32, 0xFFFFFFFF#32, 0x00000000#32, 0x00000000#32⟩
  | .rdCh1EnvEn => ⟨some .r, 0x0000000C#32, 0xFFFFFFFF#32, 0x00000000#32, 0x00000000#32⟩
  | .rdCh1EnvLoop => ⟨some .r, 0x00000010#32, 0xFFFFFFFF#32, 0x00000000#32, 0x00000000#32⟩
  | .rdCh1EnvLen => ⟨some .r, 0x00000014#32, 0xFFFFFFFF#32, 0x00000000#32, 0x00000000#32⟩
  | .rdCh1Duty => ⟨some .r, 0x00000018#32, 0xFFFFFFFF#32, 0x00000000#32, 0x00000000#32⟩
  | .rdCh1SweepEn => ⟨some .r, 0x0000001C#32, 0xFFFFFFFF#32, 0x00000000#32, 0x00000000#32⟩
  | .rdCh1SweepAmt => ⟨some .r, 0x00000020#32, 0xFFFFFFFF#32, 0x00000000#32, 0x00000000#32⟩
  | .rdCh1SweepRate => ⟨some .r, 0x00000024#32, 0xFFFFFFFF#32, 0x00000000#32, 0x00000000#32⟩
  | .rdCh2En => ⟨some .r, 0x00000040#32, 0xFFFFFFFF#32, 0x00000000#32, 0x00000000#32⟩
  | .rdCh2Detune => ⟨some .r, 0x00000044#32, 0xFFFFFFFF#32, 0x00000000#32, 0x00000000#32⟩
  | .rdCh2Vol => ⟨some .r, 0x00000048#32, 0xFFFFFFFF#32, 0x00000000#32, 0x00000000#32⟩
  | .rdCh2EnvEn => ⟨some .r, 0x0000004C#32, 0xFFFFFFFF#32, 0x00000000#32, 0x00000000#32⟩
  | .rdCh2EnvLoop => ⟨some .r, 0x00000050#32, 0xFFFFFFFF#32, 0x00000000#32, 0x00000000#32⟩
  | .rdCh2EnvLen => ⟨some .r, 0x00000054#32, 0xFFFFFFFF#32, 0x00000000#32, 0x00000000#32⟩
  | .rdCh2Duty => ⟨some .r, 0x00000058#32, 0xFFFFFFFF#32, 0x00000000#32, 0x00000000#32⟩
  | .rdCh2SweepEn => ⟨some .r, 0x0000005C#32, 0xFFFFFFFF#32, 0x00000000#32, 0x00000000#32⟩
  | .rdCh2SweepAmt => ⟨some .r, 0x00000060#32, 0xFFFFFFFF#32, 0x00000000#32, 0x00000000#32⟩
  | .rdCh2SweepRate => ⟨some .r, 0x00000064#32, 0xFFFFFFFF#32, 0x00000000#32, 0x00000000#32⟩
  | .rdCh3En => ⟨some .r, 0x00000080#32, 0xFFFFFFFF#32, 0x00000000#32, 0x00000000#32⟩
  | .rdCh3Detune => ⟨some .r, 0x00000084#32, 0xFFFFFFFF#32, 0x00000000#32, 0x00000000#32⟩
  | .rdCh3Vol => ⟨some .r, 0x00000088#32, 0xFFFFFFFF#32, 0x00000000#32, 0x00000000#32⟩
  | .rdCh4En => ⟨some .r, 0x000000C0#32, 0xFFFFFFFF#32, 0x00000000#32, 0x00000000#32⟩
  | .rdCh4Vol => ⟨some .r, 0x000000C4#32, 0xFFFFFFFF#32, 0x00000000#32, 0x00000000#32⟩
  | .rdCh4EnvEn => ⟨some .r, 0x000000C8#32, 0xFFFFFFFF#32, 0x00000000#32, 0x00000000#32⟩
  | .rdCh4EnvLoop => ⟨some .r, 0x000000CC#32, 0xFFFFFFFF#32, 0x00000000#32, 0x00000000#32⟩
  | .rdCh4EnvLen => ⟨some .r, 0x000000D0#32, 0xFFFFFFFF#32, 0x00000000#32, 0x00000000#32⟩
  | .rdCh4NoiseMode => ⟨some .r, 0x000000D4#32, 0xFFFFFFFF#32, 0x00000000#32, 0x00000000#32⟩
  | .rdCh4NoiseFreqMode => ⟨some .r, 0x000000D8#32, 0xFFFFFFFF#32, 0x00000000#32, 0x00000000#32⟩
  | .rdCh4NoiseFreq => ⟨some .r, 0x000000DC#32, 0xFFFFFFFF#32, 0x00000000#32, 0x00000000#32⟩
  | .rdMasterVol => ⟨some .r, 0x000000E0#32, 0xFFFFFFFF#32, 0x00000000#32, 0x00000000#32⟩
  | .rdVibrato => ⟨some .r, 0x000000E4#32, 0xFFFFFFFF#32, 0x00000000#32, 0x00000000#32⟩
  | .wrRsv _ _ => ⟨some .w, 0x00000000#32, 0xFFFFFE03#32, 0x00000000#32, 0x00000000#32⟩
  | .rdRsv _ => ⟨some .r, 0x00000000#32, 0xFFFFFE03#32, 0x00000000#32, 0x00000000#32⟩
  | .wrGstatus _ => ⟨some .w, 0x000000F0#32, 0xFFFFFFFF#32, 0x00000000#32, 0x00000000#32⟩
  | .rdGstatus => ⟨some .r, 0x000000F0#32, 0xFFFFFFFF#32, 0x00000000#32, 0x00000000#32⟩
  | .wrGinfo _ => ⟨some .w, 0x000000F4#32, 0xFFFFFFFF#32, 0x00000000#32, 0x00000000#32⟩
  | .rdGinfo => ⟨some .r, 0x000000F4#32, 0xFFFFFFFF#32, 0x00000000#32, 0x00000000#32⟩
  | .vinit _ => ⟨some .w, 0x00000100#32, 0xFFFFFF0F#32, 0x01000000#32, 0xFFFFFFFF#32⟩
  | .vrender _ _ => ⟨some .w, 0x00000100#32, 0xFFFFFF0F#32, 0x02000000#32, 0xFFFF0000#32⟩
  | .vfree _ => ⟨some .w, 0x00000100#32, 0xFFFFFF0F#32, 0x03000000#32, 0xFFFFFFFF#32⟩
  | .cmdIllegal _ _ => ⟨some .w, 0x00000100#32, 0xFFFFFF0F#32, 0x00000000#32, 0x00000000#32⟩
  | .rdCmd _ => ⟨some .r, 0x00000100#32, 0xFFFFFF0F#32, 0x00000000#32, 0x00000000#32⟩
  | .rdStatus _ => ⟨some .r, 0x00000104#32, 0xFFFFFF0F#32, 0x00000000#32, 0x00000000#32⟩
  | .wrStatus _ _ => ⟨some .w, 0x00000104#32, 0xFFFFFF0F#32, 0x00000000#32, 0x00000000#32⟩
  | .wrFreq _ _ => ⟨some .w, 0x00000108#32, 0xFFFFFF0F#32, 0x00000000#32, 0x00000000#32⟩
  | .rdFreq _ => ⟨some .r, 0x00000108#32, 0xFFFFFF0F#32, 0x00000000#32, 0x00000000#32⟩
  | .rdOut _ _ _ => ⟨some .r, 0x00000000#32, 0x00000003#32, 0x00000000#32, 0x00000000#32⟩
  | .busErr _ => ⟨none, 0x00000000#32, 0x00000000#32, 0x00000000#32, 0x00000000#32⟩

/-- The encoding of a well-formed operation agrees with its row. -/
def TableRow.Statement (i : Instr) : Prop := ∀ c : Config, i.wf c = true → (TableRow.row i).accepts (encode i)

/-! ## Small lemmas -/

theorem TableRow.accepts_of_addr {r : TableRow.Row} {t : Txn} {d : Dir} (hd : r.dir = some d)
    (ha : t.addr &&& r.addrMask = r.addrMatch) (ht : t.dir = d)
    (hw : TableRow.data t &&& r.dataMask = r.dataMatch) : r.accepts t :=
  ⟨by intro e he; rw [hd] at he; cases he; exact ht, ha, hw⟩

/-- A row whose mask takes in the whole address word. -/
theorem TableRow.accepts_of_exact {r : TableRow.Row} {t : Txn} {d : Dir} (hd : r.dir = some d)
    (hm : r.addrMask = 0xFFFFFFFF#32) (ha : t.addr = r.addrMatch) (ht : t.dir = d)
    (hw : TableRow.data t &&& r.dataMask = r.dataMatch) : r.accepts t :=
  TableRow.accepts_of_addr hd (by rw [hm, ha]; exact BitVec.and_allOnes) ht hw

/-- A voice register's address has the voice number in bits 7..4 (30_encoding.md R145). -/
theorem TableRow.voiceReg_addr (v : VoiceId) (o : Nat) (ho : o ∈ [0x0, 0x4, 0x8]) :
    voiceRegAddr v o &&& 0xFFFFFF0F#32 = BitVec.ofNat 32 (0x100 + o) := by
  have h : ∀ v : VoiceId, ∀ o ∈ [0x0, 0x4, 0x8], voiceRegAddr v o &&& 0xFFFFFF0F#32 = BitVec.ofNat 32 (0x100 + o) := by
    decide
  exact h v o ho

/-- The VRENDER form of R143. -/
theorem TableRow.vrenderWord_match (n : BitVec 16) : vrenderWord n &&& 0xFFFF0000#32 = 0x02000000#32 := by
  unfold vrenderWord
  ext i hi
  rw [BitVec.getElem_and, BitVec.getElem_append]
  interval_cases i <;> simp

/-- The two low bits of a word whose number is a multiple of 4 are 0. -/
theorem TableRow.low_bits_zero {a : Word} (h : a.toNat % 4 = 0) : a &&& 0x00000003#32 = 0x00000000#32 := by
  apply BitVec.eq_of_toNat_eq
  rw [BitVec.toNat_and]
  exact (Nat.and_two_pow_sub_one_eq_mod a.toNat 2).trans h

/-- An output word's address is aligned. -/
theorem TableRow.outAddr_aligned (v : VoiceId) (j : BitVec 13) (s : Side) :
    BitVec.ofNat 32 (outAddr v j.toNat s) &&& 0x00000003#32 = 0x00000000#32 := by
  apply TableRow.low_bits_zero
  simp only [outAddr, BitVec.toNat_ofNat]
  omega

/-- A reserved address lies below 0x200 and is aligned. -/
theorem TableRow.rsv_addr {c : Config} {a : Word} (h : reservedAddr c a.toNat = true) :
    a &&& 0xFFFFFE03#32 = 0x00000000#32 := by
  simp only [reservedAddr, Bool.and_eq_true, Bool.or_eq_true, beq_iff_eq, decide_eq_true_eq] at h
  have ha : a.toNat < 0x200 := by omega
  have e : a = BitVec.ofNat 32 (4 * (a.toNat / 4)) := by
    apply BitVec.eq_of_toNat_eq
    simp only [BitVec.toNat_ofNat]
    omega
  have key : ∀ k : Fin 128, BitVec.ofNat 32 (4 * k.val) &&& 0xFFFFFE03#32 = 0x00000000#32 := by decide
  rw [e]
  exact key ⟨a.toNat / 4, by omega⟩

/-! ## One lemma for each operation -/

theorem TableRow.wrCh1En (d : Word) : TableRow.Statement (.wrCh1En d) :=
  fun _ _ => TableRow.accepts_of_exact rfl rfl rfl rfl BitVec.and_zero

theorem TableRow.wrCh1Detune (d : Word) : TableRow.Statement (.wrCh1Detune d) :=
  fun _ _ => TableRow.accepts_of_exact rfl rfl rfl rfl BitVec.and_zero

theorem TableRow.wrCh1Vol (d : Word) : TableRow.Statement (.wrCh1Vol d) :=
  fun _ _ => TableRow.accepts_of_exact rfl rfl rfl rfl BitVec.and_zero

theorem TableRow.wrCh1EnvEn (d : Word) : TableRow.Statement (.wrCh1EnvEn d) :=
  fun _ _ => TableRow.accepts_of_exact rfl rfl rfl rfl BitVec.and_zero

theorem TableRow.wrCh1EnvLoop (d : Word) : TableRow.Statement (.wrCh1EnvLoop d) :=
  fun _ _ => TableRow.accepts_of_exact rfl rfl rfl rfl BitVec.and_zero

theorem TableRow.wrCh1EnvLen (d : Word) : TableRow.Statement (.wrCh1EnvLen d) :=
  fun _ _ => TableRow.accepts_of_exact rfl rfl rfl rfl BitVec.and_zero

theorem TableRow.wrCh1Duty (d : Word) : TableRow.Statement (.wrCh1Duty d) :=
  fun _ _ => TableRow.accepts_of_exact rfl rfl rfl rfl BitVec.and_zero

theorem TableRow.wrCh1SweepEn (d : Word) : TableRow.Statement (.wrCh1SweepEn d) :=
  fun _ _ => TableRow.accepts_of_exact rfl rfl rfl rfl BitVec.and_zero

theorem TableRow.wrCh1SweepAmt (d : Word) : TableRow.Statement (.wrCh1SweepAmt d) :=
  fun _ _ => TableRow.accepts_of_exact rfl rfl rfl rfl BitVec.and_zero

theorem TableRow.wrCh1SweepRate (d : Word) : TableRow.Statement (.wrCh1SweepRate d) :=
  fun _ _ => TableRow.accepts_of_exact rfl rfl rfl rfl BitVec.and_zero

theorem TableRow.wrCh2En (d : Word) : TableRow.Statement (.wrCh2En d) :=
  fun _ _ => TableRow.accepts_of_exact rfl rfl rfl rfl BitVec.and_zero

theorem TableRow.wrCh2Detune (d : Word) : TableRow.Statement (.wrCh2Detune d) :=
  fun _ _ => TableRow.accepts_of_exact rfl rfl rfl rfl BitVec.and_zero

theorem TableRow.wrCh2Vol (d : Word) : TableRow.Statement (.wrCh2Vol d) :=
  fun _ _ => TableRow.accepts_of_exact rfl rfl rfl rfl BitVec.and_zero

theorem TableRow.wrCh2EnvEn (d : Word) : TableRow.Statement (.wrCh2EnvEn d) :=
  fun _ _ => TableRow.accepts_of_exact rfl rfl rfl rfl BitVec.and_zero

theorem TableRow.wrCh2EnvLoop (d : Word) : TableRow.Statement (.wrCh2EnvLoop d) :=
  fun _ _ => TableRow.accepts_of_exact rfl rfl rfl rfl BitVec.and_zero

theorem TableRow.wrCh2EnvLen (d : Word) : TableRow.Statement (.wrCh2EnvLen d) :=
  fun _ _ => TableRow.accepts_of_exact rfl rfl rfl rfl BitVec.and_zero

theorem TableRow.wrCh2Duty (d : Word) : TableRow.Statement (.wrCh2Duty d) :=
  fun _ _ => TableRow.accepts_of_exact rfl rfl rfl rfl BitVec.and_zero

theorem TableRow.wrCh2SweepEn (d : Word) : TableRow.Statement (.wrCh2SweepEn d) :=
  fun _ _ => TableRow.accepts_of_exact rfl rfl rfl rfl BitVec.and_zero

theorem TableRow.wrCh2SweepAmt (d : Word) : TableRow.Statement (.wrCh2SweepAmt d) :=
  fun _ _ => TableRow.accepts_of_exact rfl rfl rfl rfl BitVec.and_zero

theorem TableRow.wrCh2SweepRate (d : Word) : TableRow.Statement (.wrCh2SweepRate d) :=
  fun _ _ => TableRow.accepts_of_exact rfl rfl rfl rfl BitVec.and_zero

theorem TableRow.wrCh3En (d : Word) : TableRow.Statement (.wrCh3En d) :=
  fun _ _ => TableRow.accepts_of_exact rfl rfl rfl rfl BitVec.and_zero

theorem TableRow.wrCh3Detune (d : Word) : TableRow.Statement (.wrCh3Detune d) :=
  fun _ _ => TableRow.accepts_of_exact rfl rfl rfl rfl BitVec.and_zero

theorem TableRow.wrCh3Vol (d : Word) : TableRow.Statement (.wrCh3Vol d) :=
  fun _ _ => TableRow.accepts_of_exact rfl rfl rfl rfl BitVec.and_zero

theorem TableRow.wrCh4En (d : Word) : TableRow.Statement (.wrCh4En d) :=
  fun _ _ => TableRow.accepts_of_exact rfl rfl rfl rfl BitVec.and_zero

theorem TableRow.wrCh4Vol (d : Word) : TableRow.Statement (.wrCh4Vol d) :=
  fun _ _ => TableRow.accepts_of_exact rfl rfl rfl rfl BitVec.and_zero

theorem TableRow.wrCh4EnvEn (d : Word) : TableRow.Statement (.wrCh4EnvEn d) :=
  fun _ _ => TableRow.accepts_of_exact rfl rfl rfl rfl BitVec.and_zero

theorem TableRow.wrCh4EnvLoop (d : Word) : TableRow.Statement (.wrCh4EnvLoop d) :=
  fun _ _ => TableRow.accepts_of_exact rfl rfl rfl rfl BitVec.and_zero

theorem TableRow.wrCh4EnvLen (d : Word) : TableRow.Statement (.wrCh4EnvLen d) :=
  fun _ _ => TableRow.accepts_of_exact rfl rfl rfl rfl BitVec.and_zero

theorem TableRow.wrCh4NoiseMode (d : Word) : TableRow.Statement (.wrCh4NoiseMode d) :=
  fun _ _ => TableRow.accepts_of_exact rfl rfl rfl rfl BitVec.and_zero

theorem TableRow.wrCh4NoiseFreqMode (d : Word) : TableRow.Statement (.wrCh4NoiseFreqMode d) :=
  fun _ _ => TableRow.accepts_of_exact rfl rfl rfl rfl BitVec.and_zero

theorem TableRow.wrCh4NoiseFreq (d : Word) : TableRow.Statement (.wrCh4NoiseFreq d) :=
  fun _ _ => TableRow.accepts_of_exact rfl rfl rfl rfl BitVec.and_zero

theorem TableRow.wrMasterVol (d : Word) : TableRow.Statement (.wrMasterVol d) :=
  fun _ _ => TableRow.accepts_of_exact rfl rfl rfl rfl BitVec.and_zero

theorem TableRow.wrVibrato (d : Word) : TableRow.Statement (.wrVibrato d) :=
  fun _ _ => TableRow.accepts_of_exact rfl rfl rfl rfl BitVec.and_zero

theorem TableRow.rdCh1En : TableRow.Statement (.rdCh1En) :=
  fun _ _ => TableRow.accepts_of_exact rfl rfl rfl rfl BitVec.and_zero

theorem TableRow.rdCh1Detune : TableRow.Statement (.rdCh1Detune) :=
  fun _ _ => TableRow.accepts_of_exact rfl rfl rfl rfl BitVec.and_zero

theorem TableRow.rdCh1Vol : TableRow.Statement (.rdCh1Vol) :=
  fun _ _ => TableRow.accepts_of_exact rfl rfl rfl rfl BitVec.and_zero

theorem TableRow.rdCh1EnvEn : TableRow.Statement (.rdCh1EnvEn) :=
  fun _ _ => TableRow.accepts_of_exact rfl rfl rfl rfl BitVec.and_zero

theorem TableRow.rdCh1EnvLoop : TableRow.Statement (.rdCh1EnvLoop) :=
  fun _ _ => TableRow.accepts_of_exact rfl rfl rfl rfl BitVec.and_zero

theorem TableRow.rdCh1EnvLen : TableRow.Statement (.rdCh1EnvLen) :=
  fun _ _ => TableRow.accepts_of_exact rfl rfl rfl rfl BitVec.and_zero

theorem TableRow.rdCh1Duty : TableRow.Statement (.rdCh1Duty) :=
  fun _ _ => TableRow.accepts_of_exact rfl rfl rfl rfl BitVec.and_zero

theorem TableRow.rdCh1SweepEn : TableRow.Statement (.rdCh1SweepEn) :=
  fun _ _ => TableRow.accepts_of_exact rfl rfl rfl rfl BitVec.and_zero

theorem TableRow.rdCh1SweepAmt : TableRow.Statement (.rdCh1SweepAmt) :=
  fun _ _ => TableRow.accepts_of_exact rfl rfl rfl rfl BitVec.and_zero

theorem TableRow.rdCh1SweepRate : TableRow.Statement (.rdCh1SweepRate) :=
  fun _ _ => TableRow.accepts_of_exact rfl rfl rfl rfl BitVec.and_zero

theorem TableRow.rdCh2En : TableRow.Statement (.rdCh2En) :=
  fun _ _ => TableRow.accepts_of_exact rfl rfl rfl rfl BitVec.and_zero

theorem TableRow.rdCh2Detune : TableRow.Statement (.rdCh2Detune) :=
  fun _ _ => TableRow.accepts_of_exact rfl rfl rfl rfl BitVec.and_zero

theorem TableRow.rdCh2Vol : TableRow.Statement (.rdCh2Vol) :=
  fun _ _ => TableRow.accepts_of_exact rfl rfl rfl rfl BitVec.and_zero

theorem TableRow.rdCh2EnvEn : TableRow.Statement (.rdCh2EnvEn) :=
  fun _ _ => TableRow.accepts_of_exact rfl rfl rfl rfl BitVec.and_zero

theorem TableRow.rdCh2EnvLoop : TableRow.Statement (.rdCh2EnvLoop) :=
  fun _ _ => TableRow.accepts_of_exact rfl rfl rfl rfl BitVec.and_zero

theorem TableRow.rdCh2EnvLen : TableRow.Statement (.rdCh2EnvLen) :=
  fun _ _ => TableRow.accepts_of_exact rfl rfl rfl rfl BitVec.and_zero

theorem TableRow.rdCh2Duty : TableRow.Statement (.rdCh2Duty) :=
  fun _ _ => TableRow.accepts_of_exact rfl rfl rfl rfl BitVec.and_zero

theorem TableRow.rdCh2SweepEn : TableRow.Statement (.rdCh2SweepEn) :=
  fun _ _ => TableRow.accepts_of_exact rfl rfl rfl rfl BitVec.and_zero

theorem TableRow.rdCh2SweepAmt : TableRow.Statement (.rdCh2SweepAmt) :=
  fun _ _ => TableRow.accepts_of_exact rfl rfl rfl rfl BitVec.and_zero

theorem TableRow.rdCh2SweepRate : TableRow.Statement (.rdCh2SweepRate) :=
  fun _ _ => TableRow.accepts_of_exact rfl rfl rfl rfl BitVec.and_zero

theorem TableRow.rdCh3En : TableRow.Statement (.rdCh3En) :=
  fun _ _ => TableRow.accepts_of_exact rfl rfl rfl rfl BitVec.and_zero

theorem TableRow.rdCh3Detune : TableRow.Statement (.rdCh3Detune) :=
  fun _ _ => TableRow.accepts_of_exact rfl rfl rfl rfl BitVec.and_zero

theorem TableRow.rdCh3Vol : TableRow.Statement (.rdCh3Vol) :=
  fun _ _ => TableRow.accepts_of_exact rfl rfl rfl rfl BitVec.and_zero

theorem TableRow.rdCh4En : TableRow.Statement (.rdCh4En) :=
  fun _ _ => TableRow.accepts_of_exact rfl rfl rfl rfl BitVec.and_zero

theorem TableRow.rdCh4Vol : TableRow.Statement (.rdCh4Vol) :=
  fun _ _ => TableRow.accepts_of_exact rfl rfl rfl rfl BitVec.and_zero

theorem TableRow.rdCh4EnvEn : TableRow.Statement (.rdCh4EnvEn) :=
  fun _ _ => TableRow.accepts_of_exact rfl rfl rfl rfl BitVec.and_zero

theorem TableRow.rdCh4EnvLoop : TableRow.Statement (.rdCh4EnvLoop) :=
  fun _ _ => TableRow.accepts_of_exact rfl rfl rfl rfl BitVec.and_zero

theorem TableRow.rdCh4EnvLen : TableRow.Statement (.rdCh4EnvLen) :=
  fun _ _ => TableRow.accepts_of_exact rfl rfl rfl rfl BitVec.and_zero

theorem TableRow.rdCh4NoiseMode : TableRow.Statement (.rdCh4NoiseMode) :=
  fun _ _ => TableRow.accepts_of_exact rfl rfl rfl rfl BitVec.and_zero

theorem TableRow.rdCh4NoiseFreqMode : TableRow.Statement (.rdCh4NoiseFreqMode) :=
  fun _ _ => TableRow.accepts_of_exact rfl rfl rfl rfl BitVec.and_zero

theorem TableRow.rdCh4NoiseFreq : TableRow.Statement (.rdCh4NoiseFreq) :=
  fun _ _ => TableRow.accepts_of_exact rfl rfl rfl rfl BitVec.and_zero

theorem TableRow.rdMasterVol : TableRow.Statement (.rdMasterVol) :=
  fun _ _ => TableRow.accepts_of_exact rfl rfl rfl rfl BitVec.and_zero

theorem TableRow.rdVibrato : TableRow.Statement (.rdVibrato) :=
  fun _ _ => TableRow.accepts_of_exact rfl rfl rfl rfl BitVec.and_zero

theorem TableRow.wrRsv (a : Word) (d : Word) : TableRow.Statement (.wrRsv a d) :=
  fun _ h => TableRow.accepts_of_addr rfl (TableRow.rsv_addr h) rfl BitVec.and_zero

theorem TableRow.rdRsv (a : Word) : TableRow.Statement (.rdRsv a) :=
  fun _ h => TableRow.accepts_of_addr rfl (TableRow.rsv_addr h) rfl BitVec.and_zero

theorem TableRow.wrGstatus (d : Word) : TableRow.Statement (.wrGstatus d) :=
  fun _ _ => TableRow.accepts_of_exact rfl rfl rfl rfl BitVec.and_zero

theorem TableRow.rdGstatus : TableRow.Statement (.rdGstatus) :=
  fun _ _ => TableRow.accepts_of_exact rfl rfl rfl rfl BitVec.and_zero

theorem TableRow.wrGinfo (d : Word) : TableRow.Statement (.wrGinfo d) :=
  fun _ _ => TableRow.accepts_of_exact rfl rfl rfl rfl BitVec.and_zero

theorem TableRow.rdGinfo : TableRow.Statement (.rdGinfo) :=
  fun _ _ => TableRow.accepts_of_exact rfl rfl rfl rfl BitVec.and_zero

theorem TableRow.vinit (v : VoiceId) : TableRow.Statement (.vinit v) :=
  fun _ _ => TableRow.accepts_of_addr rfl (TableRow.voiceReg_addr v _ (by decide)) rfl BitVec.and_allOnes

theorem TableRow.vrender (v : VoiceId) (n : BitVec 16) : TableRow.Statement (.vrender v n) :=
  fun _ _ => TableRow.accepts_of_addr rfl (TableRow.voiceReg_addr v _ (by decide)) rfl (TableRow.vrenderWord_match n)

theorem TableRow.vfree (v : VoiceId) : TableRow.Statement (.vfree v) :=
  fun _ _ => TableRow.accepts_of_addr rfl (TableRow.voiceReg_addr v _ (by decide)) rfl BitVec.and_allOnes

theorem TableRow.cmdIllegal (v : VoiceId) (w : Word) : TableRow.Statement (.cmdIllegal v w) :=
  fun _ _ => TableRow.accepts_of_addr rfl (TableRow.voiceReg_addr v _ (by decide)) rfl BitVec.and_zero

theorem TableRow.rdCmd (v : VoiceId) : TableRow.Statement (.rdCmd v) :=
  fun _ _ => TableRow.accepts_of_addr rfl (TableRow.voiceReg_addr v _ (by decide)) rfl BitVec.and_zero

theorem TableRow.rdStatus (v : VoiceId) : TableRow.Statement (.rdStatus v) :=
  fun _ _ => TableRow.accepts_of_addr rfl (TableRow.voiceReg_addr v _ (by decide)) rfl BitVec.and_zero

theorem TableRow.wrStatus (v : VoiceId) (d : Word) : TableRow.Statement (.wrStatus v d) :=
  fun _ _ => TableRow.accepts_of_addr rfl (TableRow.voiceReg_addr v _ (by decide)) rfl BitVec.and_zero

theorem TableRow.wrFreq (v : VoiceId) (d : Word) : TableRow.Statement (.wrFreq v d) :=
  fun _ _ => TableRow.accepts_of_addr rfl (TableRow.voiceReg_addr v _ (by decide)) rfl BitVec.and_zero

theorem TableRow.rdFreq (v : VoiceId) : TableRow.Statement (.rdFreq v) :=
  fun _ _ => TableRow.accepts_of_addr rfl (TableRow.voiceReg_addr v _ (by decide)) rfl BitVec.and_zero

theorem TableRow.rdOut (v : VoiceId) (j : BitVec 13) (s : Side) : TableRow.Statement (.rdOut v j s) :=
  fun _ _ => TableRow.accepts_of_addr rfl (TableRow.outAddr_aligned v j s) rfl BitVec.and_zero

theorem TableRow.busErr (t : Txn) : TableRow.Statement (.busErr t) :=
  fun _ _ => ⟨(by intro _ h; cases h), BitVec.and_zero, BitVec.and_zero⟩

end Sys2Proof.Laws
end

