-- ==== Sys2Proof/Laws/Render.lean ====
section
/-! SUPPORT. The frame loop: it splits at any frame, its hidden state does not depend on where its frames are written,
and what it leaves in memory. -/

namespace Sys2Proof.Machine

@[simp] theorem renderFrames_zero (c : Config) (p : Params) (d : Derived) (v : VoiceId) (i : Nat) (r : RenderState) :
    renderFrames c p d v 0 i r = r := rfl

theorem renderFrames_succ (c : Config) (p : Params) (d : Derived) (v : VoiceId) (n i : Nat) (r : RenderState) :
    renderFrames c p d v (n + 1) i r = renderFrames c p d v n (i + 1) (renderFrame c p d v i r) := rfl

/-- The loop splits at any frame (41_voice_commands.md R239). -/
theorem renderFrames_add (c : Config) (p : Params) (d : Derived) (v : VoiceId) (a b i : Nat) (r : RenderState) :
    renderFrames c p d v (a + b) i r = renderFrames c p d v b (i + a) (renderFrames c p d v a i r) := by
  induction a generalizing i r with
  | zero => simp
  | succ a ih =>
    rw [Nat.succ_add, renderFrames_succ, ih, renderFrames_succ]
    congr 1
    omega

/-- One more frame at the end of the loop. -/
theorem renderFrames_last (c : Config) (p : Params) (d : Derived) (v : VoiceId) (n i : Nat) (r : RenderState) :
    renderFrames c p d v (n + 1) i r = renderFrame c p d v (i + n) (renderFrames c p d v n i r) := by
  rw [renderFrames_add]; rfl

/-- The hidden state and the dither feed of a frame do not depend on the frame's place or on memory. -/
theorem renderFrame_congr (c : Config) (p : Params) (d : Derived) (v : VoiceId) (i j : Nat) {r q : RenderState}
    (hh : r.hid = q.hid) (hf : r.feed = q.feed) :
    (renderFrame c p d v i r).hid = (renderFrame c p d v j q).hid ∧
      (renderFrame c p d v i r).feed = (renderFrame c p d v j q).feed := by
  simp [renderFrame, hh, hf]

/-- The same of the whole loop. -/
theorem renderFrames_congr (c : Config) (p : Params) (d : Derived) (v : VoiceId) (n i j : Nat) {r q : RenderState}
    (hh : r.hid = q.hid) (hf : r.feed = q.feed) :
    (renderFrames c p d v n i r).hid = (renderFrames c p d v n j q).hid ∧
      (renderFrames c p d v n i r).feed = (renderFrames c p d v n j q).feed := by
  induction n generalizing i j r q with
  | zero => exact ⟨hh, hf⟩
  | succ n ih =>
    rw [renderFrames_succ, renderFrames_succ]
    have h := renderFrame_congr c p d v i j hh hf
    exact ih (i + 1) (j + 1) h.1 h.2

/-- Whatever a frame keeps of the hidden state, the loop keeps. -/
theorem renderFrames_hid_induct {c : Config} {p : Params} {d : Derived} {v : VoiceId} {I : VoiceState → Prop}
    (hI : ∀ x y h, I h → I (frame c p d x y h)) (n i : Nat) (r : RenderState) (h : I r.hid) :
    I (renderFrames c p d v n i r).hid := by
  induction n generalizing i r with
  | zero => exact h
  | succ n ih => exact ih _ _ (hI _ _ _ h)

/-- A draw advances the feed's counter by one and takes the oldest supplied sample, if there is one. -/
theorem draw_feed (v : VoiceId) (f : DitherFeed) :
    (f.draw v).2 = { queue := f.queue.drop 1, drawn := f.drawn + 1 } := by
  obtain ⟨q, k⟩ := f
  cases q <;> rfl

/-- A render of `n` frames makes exactly `2 * n` draws (45_mixer_dac.md R361). -/
theorem renderFrames_feed (c : Config) (p : Params) (d : Derived) (v : VoiceId) (n i : Nat) (r : RenderState) :
    (renderFrames c p d v n i r).feed = { queue := r.feed.queue.drop (2 * n), drawn := r.feed.drawn + 2 * n } := by
  induction n generalizing i r with
  | zero => simp
  | succ n ih =>
    rw [renderFrames_succ, ih]
    simp only [renderFrame, draw_feed, List.drop_drop]
    congr 1
    · congr 1; omega
    · omega

/-- The loop keeps the canonical form of memory. -/
theorem renderFrames_wf (c : Config) (p : Params) (d : Derived) (v : VoiceId) (n i : Nat) (r : RenderState)
    (h : r.mem.wf = true) : (renderFrames c p d v n i r).mem.wf = true := by
  induction n generalizing i r with
  | zero => exact h
  | succ n ih => exact ih _ _ (wf_outFrame h _ _ _)

/-- A byte outside the frames a render writes is left alone. -/
theorem renderFrames_readByte (c : Config) (p : Params) (d : Derived) (v : VoiceId) (n i b : Nat) (r : RenderState)
    (h : r.mem.wf = true) (hb : b < outAddr v i .left ∨ outAddr v (i + n) .left ≤ b) :
    (renderFrames c p d v n i r).mem.readByte b = r.mem.readByte b := by
  induction n generalizing i r with
  | zero => rfl
  | succ n ih =>
    rw [renderFrames_succ, ih _ _ (wf_outFrame h _ _ _) (by simp only [outAddr] at hb ⊢; omega)]
    exact readByte_outFrame_of_outside h v i b _ (by simp only [outAddr] at hb ⊢; omega)

/-- A word of another voice, or of a frame outside the render, is left alone. -/
theorem renderFrames_outRead_of_outside (c : Config) (p : Params) (d : Derived) (v u : VoiceId) (n i k : Nat) (s : Side)
    (r : RenderState) (h : r.mem.wf = true) (hn : i + n ≤ 8192) (hk : k < 8192)
    (hne : u ≠ v ∨ k < i ∨ i + n ≤ k) :
    outRead u k s (renderFrames c p d v n i r).mem = outRead u k s r.mem := by
  induction n generalizing i r with
  | zero => rfl
  | succ n ih =>
    have h1 : u ≠ v ∨ k < i + 1 ∨ i + 1 + n ≤ k := hne.imp_right (by omega)
    have h2 : u ≠ v ∨ k ≠ i := hne.imp_right (by omega)
    rw [renderFrames_succ, ih _ _ (wf_outFrame h _ _ _) (by omega) h1]
    exact outRead_outFrame_of_ne h v u i k s _ (by omega) hk h2

/-- Frame `k` of a render holds V.yPrev as it stands after `k + 1` frames (45_mixer_dac.md R374). -/
theorem renderFrames_outRead (c : Config) (p : Params) (d : Derived) (v : VoiceId) (n i k : Nat) (s : Side)
    (r : RenderState) (h : r.mem.wf = true) (hn : i + n ≤ 8192) (hk : k < n) :
    outRead v (i + k) s (renderFrames c p d v n i r).mem =
      some (renderFrames c p d v (k + 1) i r).hid.yPrev := by
  have e : n = (k + 1) + (n - (k + 1)) := by omega
  rw [e, renderFrames_add, renderFrames_outRead_of_outside _ _ _ _ _ _ _ _ _ _
    (renderFrames_wf c p d v (k + 1) i r h) (by omega) (by omega) (by omega), renderFrames_last]
  exact outRead_outFrame_self (renderFrames_wf c p d v k i r h) v (i + k) s _

/-- The cells of memory after a render lie in its frames or were there before. -/
theorem mem_renderFrames {c : Config} {p : Params} {d : Derived} {v : VoiceId} {n i : Nat} {r : RenderState}
    {cell : Host.Cell} (h : cell ∈ (renderFrames c p d v n i r).mem) :
    (outAddr v i .left ≤ cell.1 ∧ cell.1 < outAddr v (i + n) .left) ∨ cell ∈ r.mem := by
  induction n generalizing i r with
  | zero => exact .inr h
  | succ n ih =>
    rw [renderFrames_succ] at h
    rcases ih h with h | h
    · left
      simp only [outAddr] at h ⊢
      omega
    · rcases mem_outFrame h with h | h
      · left
        simp only [outAddr] at h ⊢
        omega
      · exact .inr h

/-! ## The start of a render, field by field

These are closed by `simp`, not `rfl`: a definitional check would compare whole structures and evaluate a wavelength. -/

@[simp] theorem renderStart_maxWlen (c : Config) (p : Params) (f : Word) (h : VoiceState) :
    (renderStart c p f h).maxWlen = h.maxWlen := by
  unfold renderStart noiseWavelength pitchUpdate
  by_cases hf : f = h.cachedFreq <;> simp [hf]

@[simp] theorem renderStart_phase3 (c : Config) (p : Params) (f : Word) (h : VoiceState) :
    (renderStart c p f h).phase3 = h.phase3 := by
  unfold renderStart noiseWavelength pitchUpdate
  by_cases hf : f = h.cachedFreq <;> simp [hf]

@[simp] theorem renderStart_phase4 (c : Config) (p : Params) (f : Word) (h : VoiceState) :
    (renderStart c p f h).phase4 = h.phase4 := by
  unfold renderStart noiseWavelength pitchUpdate
  by_cases hf : f = h.cachedFreq <;> simp [hf]

@[simp] theorem renderStart_env4 (c : Config) (p : Params) (f : Word) (h : VoiceState) :
    (renderStart c p f h).env4 = h.env4 := by
  unfold renderStart noiseWavelength pitchUpdate
  by_cases hf : f = h.cachedFreq <;> simp [hf]

@[simp] theorem renderStart_lfsr (c : Config) (p : Params) (f : Word) (h : VoiceState) :
    (renderStart c p f h).lfsr = h.lfsr := by
  unfold renderStart noiseWavelength pitchUpdate
  by_cases hf : f = h.cachedFreq <;> simp [hf]

@[simp] theorem renderStart_m12 (c : Config) (p : Params) (f : Word) (h : VoiceState) :
    (renderStart c p f h).m12 = h.m12 := by
  unfold renderStart noiseWavelength pitchUpdate
  by_cases hf : f = h.cachedFreq <;> simp [hf]

@[simp] theorem renderStart_m34 (c : Config) (p : Params) (f : Word) (h : VoiceState) :
    (renderStart c p f h).m34 = h.m34 := by
  unfold renderStart noiseWavelength pitchUpdate
  by_cases hf : f = h.cachedFreq <;> simp [hf]

@[simp] theorem renderStart_xPrev (c : Config) (p : Params) (f : Word) (h : VoiceState) :
    (renderStart c p f h).xPrev = h.xPrev := by
  unfold renderStart noiseWavelength pitchUpdate
  by_cases hf : f = h.cachedFreq <;> simp [hf]

@[simp] theorem renderStart_yPrev (c : Config) (p : Params) (f : Word) (h : VoiceState) :
    (renderStart c p f h).yPrev = h.yPrev := by
  unfold renderStart noiseWavelength pitchUpdate
  by_cases hf : f = h.cachedFreq <;> simp [hf]

@[simp] theorem renderStart_ch1_phase (c : Config) (p : Params) (f : Word) (h : VoiceState) :
    (renderStart c p f h).ch1.phase = h.ch1.phase := by
  unfold renderStart noiseWavelength pitchUpdate
  by_cases hf : f = h.cachedFreq <;> simp [hf]

@[simp] theorem renderStart_ch1_sweepCtr (c : Config) (p : Params) (f : Word) (h : VoiceState) :
    (renderStart c p f h).ch1.sweepCtr = h.ch1.sweepCtr := by
  unfold renderStart noiseWavelength pitchUpdate
  by_cases hf : f = h.cachedFreq <;> simp [hf]

@[simp] theorem renderStart_ch1_env (c : Config) (p : Params) (f : Word) (h : VoiceState) :
    (renderStart c p f h).ch1.env = h.ch1.env := by
  unfold renderStart noiseWavelength pitchUpdate
  by_cases hf : f = h.cachedFreq <;> simp [hf]

@[simp] theorem renderStart_ch2_phase (c : Config) (p : Params) (f : Word) (h : VoiceState) :
    (renderStart c p f h).ch2.phase = h.ch2.phase := by
  unfold renderStart noiseWavelength pitchUpdate
  by_cases hf : f = h.cachedFreq <;> simp [hf]

@[simp] theorem renderStart_ch2_sweepCtr (c : Config) (p : Params) (f : Word) (h : VoiceState) :
    (renderStart c p f h).ch2.sweepCtr = h.ch2.sweepCtr := by
  unfold renderStart noiseWavelength pitchUpdate
  by_cases hf : f = h.cachedFreq <;> simp [hf]

@[simp] theorem renderStart_ch2_env (c : Config) (p : Params) (f : Word) (h : VoiceState) :
    (renderStart c p f h).ch2.env = h.ch2.env := by
  unfold renderStart noiseWavelength pitchUpdate
  by_cases hf : f = h.cachedFreq <;> simp [hf]

@[simp] theorem renderStart_cachedFreq (c : Config) (p : Params) (f : Word) (h : VoiceState) :
    (renderStart c p f h).cachedFreq = f := by
  unfold renderStart noiseWavelength pitchUpdate
  by_cases hf : f = h.cachedFreq <;> simp [hf]

@[simp] theorem renderStart_wlen4 (c : Config) (p : Params) (f : Word) (h : VoiceState) :
    (renderStart c p f h).wlen4 = noiseWlen c p.ch4 f := by
  unfold renderStart noiseWavelength
  simp

/-- At a new pitch the wavelengths of channels 1 to 3 are recomputed (41_voice_commands.md R227). -/
theorem renderStart_wlen_of_ne (c : Config) (p : Params) {f : Word} {h : VoiceState} (hf : f ≠ h.cachedFreq) :
    (renderStart c p f h).ch1.wlen = detunedWlen c f p.ch1.detune ∧
      (renderStart c p f h).ch2.wlen = detunedWlen c f p.ch2.detune ∧
      (renderStart c p f h).wlen3 = detunedWlen c f p.ch3.detune := by
  unfold renderStart noiseWavelength pitchUpdate
  simp [hf]

/-- At a held pitch they stay. -/
theorem renderStart_wlen_of_eq (c : Config) (p : Params) {f : Word} {h : VoiceState} (hf : f = h.cachedFreq) :
    (renderStart c p f h).ch1.wlen = h.ch1.wlen ∧ (renderStart c p f h).ch2.wlen = h.ch2.wlen ∧
      (renderStart c p f h).wlen3 = h.wlen3 := by
  unfold renderStart noiseWavelength pitchUpdate
  simp [hf]

/-- A render's start leaves a voice that is already at this pitch and noise wavelength as it is. -/
theorem renderStart_of_current (c : Config) (p : Params) {f : Word} {h : VoiceState} (hf : h.cachedFreq = f)
    (hw : h.wlen4 = noiseWlen c p.ch4 f) : renderStart c p f h = h := by
  have e : pitchUpdate c p f h = h := if_neg (not_not_intro hf.symm)
  unfold renderStart noiseWavelength
  rw [e]
  cases h
  cases hw
  rfl

/-! ## What a frame keeps -/

@[simp] theorem frame_cachedFreq (c : Config) (p : Params) (d : Derived) (x y : F32) (h : VoiceState) :
    (frame c p d x y h).cachedFreq = h.cachedFreq := rfl
@[simp] theorem frame_maxWlen (c : Config) (p : Params) (d : Derived) (x y : F32) (h : VoiceState) :
    (frame c p d x y h).maxWlen = h.maxWlen := rfl
@[simp] theorem frame_wlen3 (c : Config) (p : Params) (d : Derived) (x y : F32) (h : VoiceState) :
    (frame c p d x y h).wlen3 = h.wlen3 := rfl
@[simp] theorem frame_wlen4 (c : Config) (p : Params) (d : Derived) (x y : F32) (h : VoiceState) :
    (frame c p d x y h).wlen4 = h.wlen4 := rfl

/-! ## What a frame gives, field by field -/

theorem frame_ch1 (c : Config) (p : Params) (d : Derived) (x y : F32) (h : VoiceState) :
    (frame c p d x y h).ch1 = toneNext c h.maxWlen .one p.ch1 d.t1 h.ch1 := rfl
theorem frame_ch2 (c : Config) (p : Params) (d : Derived) (x y : F32) (h : VoiceState) :
    (frame c p d x y h).ch2 = toneNext c h.maxWlen .two p.ch2 d.t2 h.ch2 := rfl
theorem frame_lfsr (c : Config) (p : Params) (d : Derived) (x y : F32) (h : VoiceState) :
    (frame c p d x y h).lfsr = if h.wlen4 ≤ h.phase4 + 1 then lfsrStep h.lfsr p.ch4.noiseMode else h.lfsr := rfl
theorem frame_phase4 (c : Config) (p : Params) (d : Derived) (x y : F32) (h : VoiceState) :
    (frame c p d x y h).phase4 = if h.wlen4 ≤ h.phase4 + 1 then 0 else h.phase4 + 1 := rfl
theorem frame_env4 (c : Config) (p : Params) (d : Derived) (x y : F32) (h : VoiceState) :
    (frame c p d x y h).env4 = envelopeStep p.ch4.envLoop d.envLen4 h.env4 := rfl
theorem toneNext_env (c : Config) (m : Nat) (ch : ToneCh) (p : ToneParams) (d : ToneDerived) (t : ToneState) :
    (toneNext c m ch p d t).env = envelopeStep p.envLoop d.envLen t.env := by
  unfold toneNext sweepStep
  simp only
  split <;> rfl
theorem toneNext_wlen (c : Config) (m : Nat) (ch : ToneCh) (p : ToneParams) (d : ToneDerived) (t : ToneState) :
    (toneNext c m ch p d t).wlen = (sweepStep c m ch p d t).wlen := rfl
theorem toneNext_sweepCtr (c : Config) (m : Nat) (ch : ToneCh) (p : ToneParams) (d : ToneDerived) (t : ToneState) :
    (toneNext c m ch p d t).sweepCtr = (sweepStep c m ch p d t).sweepCtr := rfl

/-- A frame that does not depend on which of two parameter sets it reads makes a loop that does not. -/
theorem renderFrames_params_congr (c : Config) (p q : Params) (d : Derived) (v : VoiceId)
    (hq : ∀ x y h, frame c q d x y h = frame c p d x y h) (n i : Nat) (r : RenderState) :
    renderFrames c q d v n i r = renderFrames c p d v n i r := by
  induction n generalizing i r with
  | zero => rfl
  | succ n ih =>
    rw [renderFrames_succ, renderFrames_succ, ih]
    unfold renderFrame
    simp only [hq]

/-! ## The loop's small steps -/

/-- The envelope step either counts or fires (42_tone_channels.md R275). -/
theorem envelopeStep_ctr_lt (loop : Int) (len : Nat) (e : Envelope) (h : len < 2 ^ 31) :
    (envelopeStep loop len e).ctr < 2 ^ 31 := by
  unfold envelopeStep
  split
  · simp
  · simp only; omega

/-- An envelope value stays in 0..15 (10_state.md R71). -/
theorem envelopeStep_val_le (loop : Int) (len : Nat) (e : Envelope) (h : e.val ≤ 15) :
    (envelopeStep loop len e).val ≤ 15 := by
  unfold envelopeStep envNext
  split
  · simp only
    split
    · split <;> omega
    · omega
  · exact h

/-- A wavelength is below 2^31 (41_voice_commands.md R226). -/
theorem trunc_lt_of_not_le (q : F32) (h : F32.isNaN q = false) (hs : F32.neg? q = false)
    (hq : F32.le (F32.ofNat (2 ^ 31)) q = false) : F32.mag q < 0x4F000000 := by
  have e : F32.ofNat (2 ^ 31) = 0x4F000000#32 := by decide
  have k : F32.key (0x4F000000#32) = 0x4F000000 := by decide
  have n : F32.isNaN (0x4F000000#32) = false := by decide
  simp only [F32.le, e, n, h, Bool.not_false, Bool.true_and, decide_eq_false_iff_not, k] at hq
  simp only [F32.key, hs] at hq
  simp at hq
  omega

/-- The LFSR step keeps bit 15 at 0 (44_noise.md R335). -/
theorem lfsrStep_bit15 (r : BitVec 16) (mode : Int) : (lfsrStep r mode).getLsbD 15 = false := by
  unfold lfsrStep
  simp only
  split <;> split <;> simp

end Sys2Proof.Machine
end

