-- ==== Sys2Proof/Machine/Assembler.lean ====
section
/-! DEFINITION. Host programs (30_encoding.md R150, R151) as abstract syntax: each line stands for the bus transactions
the spec gives it.  The text of a line (comments, spelling of numbers) is not modelled. -/

namespace Sys2Proof.Machine

/-- A real literal, num / den with a sign. -/
structure RealLit where
  neg : Bool
  num : Nat
  den : Nat
deriving DecidableEq, Repr

/-- fl32 of a literal (R150, 00_scope.md R14). -/
def RealLit.toF32 (x : RealLit) : F32 := F32.round x.neg (x.num * 2 ^ 149) x.den

/-- The register names R150 allows beside those of the Parameter Set. -/
inductive GlobalReg where
  | gstatus
  | ginfo
deriving DecidableEq, Repr

/-- The address of a global register (10_state.md R63). -/
def GlobalReg.addr : GlobalReg → Word
  | .gstatus => 0x000000F0#32
  | .ginfo => 0x000000F4#32

/-- A line of a host program: the forms of R150, then the pseudo-instructions of R151. -/
inductive Line where
  | wr (p : Param) (imm : Int)
  | wrGlobal (g : GlobalReg) (imm : Int)
  | wrAddr (a : Word) (imm : Int)
  | rd (p : Param)
  | rdGlobal (g : GlobalReg)
  | rdAddr (a : Word)
  | wrf (v : VoiceId) (x : RealLit)
  | rdf (v : VoiceId)
  | rdst (v : VoiceId)
  | vinit (v : VoiceId)
  | vrender (v : VoiceId) (n : BitVec 16)
  | vfree (v : VoiceId)
  | cmd (v : VoiceId) (w : Word)
  | rdout (v : VoiceId) (i : BitVec 13) (c : Side)
  | note (v : VoiceId) (x : RealLit) (n : BitVec 16)
  | clrbuserr
  | tone1 (vol duty : Int)
  | tone2 (vol duty : Int)
  | mute1
  | mute2
  | mute3
  | mute4
  | restart (v : VoiceId)
deriving DecidableEq, Repr

/-- BUS-W of an integer to a register. -/
def wrTxn (p : Param) (imm : Int) : Txn := .write p.addr (wordOfInt imm)

/-- BUS-W of `fl32(real)` to FREQ(v). -/
def wrfTxn (v : VoiceId) (x : RealLit) : Txn := .write (voiceRegAddr v 0x8) x.toF32

/-- BUS-W of a command word to CMD(v). -/
def cmdTxn (v : VoiceId) (w : Word) : Txn := .write (voiceRegAddr v 0x0) w

/-- The transactions of a line, in order. -/
def Line.txns : Line → List Txn
  | .wr p imm => [wrTxn p imm]
  | .wrGlobal g imm => [.write g.addr (wordOfInt imm)]
  | .wrAddr a imm => [.write a (wordOfInt imm)]
  | .rd p => [.read p.addr]
  | .rdGlobal g => [.read g.addr]
  | .rdAddr a => [.read a]
  | .wrf v x => [wrfTxn v x]
  | .rdf v => [.read (voiceRegAddr v 0x8)]
  | .rdst v => [.read (voiceRegAddr v 0x4)]
  | .vinit v => [cmdTxn v 0x01000000#32]
  | .vrender v n => [cmdTxn v (vrenderWord n)]
  | .vfree v => [cmdTxn v 0x03000000#32]
  | .cmd v w => [cmdTxn v w]
  | .rdout v i c => [.read (BitVec.ofNat 32 (outAddr v i.toNat c))]
  | .note v x n => [wrfTxn v x, cmdTxn v (vrenderWord n)]
  | .clrbuserr => [.write GlobalReg.gstatus.addr (wordOfInt 1)]
  | .tone1 vol duty => [wrTxn .ch1En 1, wrTxn .ch1Vol vol, wrTxn .ch1Duty duty]
  | .tone2 vol duty => [wrTxn .ch2En 1, wrTxn .ch2Vol vol, wrTxn .ch2Duty duty]
  | .mute1 => [wrTxn .ch1En 0]
  | .mute2 => [wrTxn .ch2En 0]
  | .mute3 => [wrTxn .ch3En 0]
  | .mute4 => [wrTxn .ch4En 0]
  | .restart v => [cmdTxn v 0x01000000#32]

/-- A host program as the events the host issues, in order (20_memory.md R113). -/
def program (ls : List Line) : List Event := (ls.flatMap Line.txns).map .txn

/-- `s` with a host program about to be issued. -/
def State.withProgram (s : State) (ls : List Line) : State := { s with inbox := s.inbox ++ program ls }

end Sys2Proof.Machine
end

