-- ==== Sys2Proof/Tests/Slice0.lean ====
section
/-! SUPPORT. Tests: ill-formed operations refused, words written out from the spec's encodings, vectors of
95_test_vectors.md (V-...), and a witness for the hypotheses of every statement.  Every expected value comes from the
spec, none from the model. -/

namespace Sys2Proof.Machine.Tests

open Sys2Proof Sys2Proof.Machine

/-! ## WellFormed refuses an ill-formed operation for each of its checks -/

/-- 0x24 is CH1_SWEEP_RATE, 0x29 is misaligned, 0x12C is the reserved word of the absent voice 2 (R183). -/
theorem test_wf_reserved : (Instr.wrRsv 0x24#32 0#32).wf Config.tc = false ∧ (Instr.rdRsv 0x29#32).wf Config.tc = false ∧
    (Instr.rdRsv 0x12C#32).wf Config.tc = false := by decide

/-- Voice 2 of two is absent: every operation on it is ill-formed (30_encoding.md R145). -/
theorem test_wf_absent_voice : ∀ i ∈ voiceOps 2 0#16 0#32 0#32 0#13 .left, i.wf Config.tc = false := by decide

/-- A legal command word is no CMD.ILLEGAL (R144). -/
theorem test_wf_legal_command : (Instr.cmdIllegal 0 0x01000000#32).wf Config.tc = false ∧
    (Instr.cmdIllegal 0 0x0200FFFF#32).wf Config.tc = false ∧ (Instr.cmdIllegal 0 0x03000000#32).wf Config.tc = false := by
  decide

/-- Frame 256 of 256 is beyond the buffer (R145). -/
theorem test_wf_frame : (Instr.rdOut 0 256#13 .left).wf Config.tc = false := by decide

/-- A transaction the map has a place for is no bus error (R180). -/
theorem test_wf_mapped : (Instr.busErr (.read 0x000000F0#32)).wf Config.tc = false ∧
    (Instr.busErr (.write 0x000000E4#32 0#32)).wf Config.tc = false ∧
    (Instr.busErr (.read 0x000207FC#32)).wf Config.tc = false := by decide

/-- A configuration that breaks R10 is ill-formed: LFSR_SEED 0. -/
theorem test_wf_config : Config.wf { Config.tc with lfsrSeed := 0#16 } = false := by decide

/-! ## Decoding: words written out from the spec's encodings, for every constructor -/

/-- WR rows of channel 1: the addresses of 10_state.md R43. -/
theorem test_decode_wr_ch1 : ∀ x ∈ ([
    (0x00000000#32, Instr.wrCh1En 0x80000001#32), (0x00000004#32, Instr.wrCh1Detune 0x80000001#32),
    (0x00000008#32, Instr.wrCh1Vol 0x80000001#32), (0x0000000C#32, Instr.wrCh1EnvEn 0x80000001#32),
    (0x00000010#32, Instr.wrCh1EnvLoop 0x80000001#32), (0x00000014#32, Instr.wrCh1EnvLen 0x80000001#32),
    (0x00000018#32, Instr.wrCh1Duty 0x80000001#32), (0x0000001C#32, Instr.wrCh1SweepEn 0x80000001#32),
    (0x00000020#32, Instr.wrCh1SweepAmt 0x80000001#32), (0x00000024#32, Instr.wrCh1SweepRate 0x80000001#32)] : List (Word × Instr)),
    decode Config.tc (.write x.1 0x80000001#32) = x.2 ∧ encode x.2 = .write x.1 0x80000001#32 := by decide

/-- WR rows of channel 2. -/
theorem test_decode_wr_ch2 : ∀ x ∈ ([
    (0x00000040#32, Instr.wrCh2En 0x80000001#32), (0x00000044#32, Instr.wrCh2Detune 0x80000001#32),
    (0x00000048#32, Instr.wrCh2Vol 0x80000001#32), (0x0000004C#32, Instr.wrCh2EnvEn 0x80000001#32),
    (0x00000050#32, Instr.wrCh2EnvLoop 0x80000001#32), (0x00000054#32, Instr.wrCh2EnvLen 0x80000001#32),
    (0x00000058#32, Instr.wrCh2Duty 0x80000001#32), (0x0000005C#32, Instr.wrCh2SweepEn 0x80000001#32),
    (0x00000060#32, Instr.wrCh2SweepAmt 0x80000001#32), (0x00000064#32, Instr.wrCh2SweepRate 0x80000001#32)] : List (Word × Instr)),
    decode Config.tc (.write x.1 0x80000001#32) = x.2 ∧ encode x.2 = .write x.1 0x80000001#32 := by decide

/-- WR rows of channels 3 and 4, MASTER_VOL and VIBRATO. -/
theorem test_decode_wr_rest : ∀ x ∈ ([
    (0x00000080#32, Instr.wrCh3En 0x80000001#32), (0x00000084#32, Instr.wrCh3Detune 0x80000001#32),
    (0x00000088#32, Instr.wrCh3Vol 0x80000001#32), (0x000000C0#32, Instr.wrCh4En 0x80000001#32),
    (0x000000C4#32, Instr.wrCh4Vol 0x80000001#32), (0x000000C8#32, Instr.wrCh4EnvEn 0x80000001#32),
    (0x000000CC#32, Instr.wrCh4EnvLoop 0x80000001#32), (0x000000D0#32, Instr.wrCh4EnvLen 0x80000001#32),
    (0x000000D4#32, Instr.wrCh4NoiseMode 0x80000001#32), (0x000000D8#32, Instr.wrCh4NoiseFreqMode 0x80000001#32),
    (0x000000DC#32, Instr.wrCh4NoiseFreq 0x80000001#32), (0x000000E0#32, Instr.wrMasterVol 0x80000001#32),
    (0x000000E4#32, Instr.wrVibrato 0x80000001#32)] : List (Word × Instr)),
    decode Config.tc (.write x.1 0x80000001#32) = x.2 ∧ encode x.2 = .write x.1 0x80000001#32 := by decide

/-- RD rows of channel 1. -/
theorem test_decode_rd_ch1 : ∀ x ∈ ([
    (0x00000000#32, Instr.rdCh1En), (0x00000004#32, Instr.rdCh1Detune), (0x00000008#32, Instr.rdCh1Vol),
    (0x0000000C#32, Instr.rdCh1EnvEn), (0x00000010#32, Instr.rdCh1EnvLoop), (0x00000014#32, Instr.rdCh1EnvLen),
    (0x00000018#32, Instr.rdCh1Duty), (0x0000001C#32, Instr.rdCh1SweepEn), (0x00000020#32, Instr.rdCh1SweepAmt),
    (0x00000024#32, Instr.rdCh1SweepRate)] : List (Word × Instr)),
    decode Config.tc (.read x.1) = x.2 ∧ encode x.2 = .read x.1 := by decide

/-- RD rows of channel 2. -/
theorem test_decode_rd_ch2 : ∀ x ∈ ([
    (0x00000040#32, Instr.rdCh2En), (0x00000044#32, Instr.rdCh2Detune), (0x00000048#32, Instr.rdCh2Vol),
    (0x0000004C#32, Instr.rdCh2EnvEn), (0x00000050#32, Instr.rdCh2EnvLoop), (0x00000054#32, Instr.rdCh2EnvLen),
    (0x00000058#32, Instr.rdCh2Duty), (0x0000005C#32, Instr.rdCh2SweepEn), (0x00000060#32, Instr.rdCh2SweepAmt),
    (0x00000064#32, Instr.rdCh2SweepRate)] : List (Word × Instr)),
    decode Config.tc (.read x.1) = x.2 ∧ encode x.2 = .read x.1 := by decide

/-- RD rows of channels 3 and 4, MASTER_VOL and VIBRATO. -/
theorem test_decode_rd_rest : ∀ x ∈ ([
    (0x00000080#32, Instr.rdCh3En), (0x00000084#32, Instr.rdCh3Detune), (0x00000088#32, Instr.rdCh3Vol),
    (0x000000C0#32, Instr.rdCh4En), (0x000000C4#32, Instr.rdCh4Vol), (0x000000C8#32, Instr.rdCh4EnvEn),
    (0x000000CC#32, Instr.rdCh4EnvLoop), (0x000000D0#32, Instr.rdCh4EnvLen), (0x000000D4#32, Instr.rdCh4NoiseMode),
    (0x000000D8#32, Instr.rdCh4NoiseFreqMode), (0x000000DC#32, Instr.rdCh4NoiseFreq),
    (0x000000E0#32, Instr.rdMasterVol), (0x000000E4#32, Instr.rdVibrato)] : List (Word × Instr)),
    decode Config.tc (.read x.1) = x.2 ∧ encode x.2 = .read x.1 := by decide

/-- Reserved locations at the ends of the first ranges of 40_host_bus.md R183. -/
theorem test_decode_reserved_low : ([0x28#32, 0x3C#32, 0x68#32, 0x7C#32, 0x8C#32, 0xBC#32] : List Word).all (fun a =>
    decode Config.tc (.write a 7#32) == .wrRsv a 7#32 && decode Config.tc (.read a) == .rdRsv a) = true := by decide

/-- The later ranges of R183, and the reserved word of both present voices. -/
theorem test_decode_reserved_high : ([0xE8#32, 0xEC#32, 0xF8#32, 0xFC#32, 0x10C#32, 0x11C#32] : List Word).all (fun a =>
    decode Config.tc (.write a 7#32) == .wrRsv a 7#32 && decode Config.tc (.read a) == .rdRsv a) = true := by decide

/-- GSTATUS at 0xF0 and GINFO at 0xF4 (10_state.md R63). -/
theorem test_decode_global :
    decode Config.tc (.write 0x000000F0#32 1#32) = .wrGstatus 1#32 ∧ decode Config.tc (.read 0x000000F0#32) = .rdGstatus ∧
    decode Config.tc (.write 0x000000F4#32 5#32) = .wrGinfo 5#32 ∧ decode Config.tc (.read 0x000000F4#32) = .rdGinfo := by
  decide

/-- The command words of 30_encoding.md R143, written to CMD(0) at 0x100 and CMD(1) at 0x110. -/
theorem test_decode_commands :
    decode Config.tc (.write 0x00000100#32 0x01000000#32) = .vinit 0 ∧
    decode Config.tc (.write 0x00000110#32 0x02000100#32) = .vrender 1 256#16 ∧
    decode Config.tc (.write 0x00000100#32 0x0200FFFF#32) = .vrender 0 0xFFFF#16 ∧
    decode Config.tc (.write 0x00000110#32 0x03000000#32) = .vfree 1 := by decide

/-- Words no form of R143 matches (V-CMD-8 to V-CMD-11). -/
theorem test_decode_illegal :
    decode Config.tc (.write 0x00000100#32 0x02010008#32) = .cmdIllegal 0 0x02010008#32 ∧
    decode Config.tc (.write 0x00000100#32 0x04000000#32) = .cmdIllegal 0 0x04000000#32 ∧
    decode Config.tc (.write 0x00000110#32 0x00000000#32) = .cmdIllegal 1 0x00000000#32 ∧
    decode Config.tc (.write 0x00000110#32 0x01000001#32) = .cmdIllegal 1 0x01000001#32 := by decide

/-- The registers of a voice block (10_state.md R66). -/
theorem test_decode_voice_registers :
    decode Config.tc (.read 0x00000110#32) = .rdCmd 1 ∧ decode Config.tc (.read 0x00000114#32) = .rdStatus 1 ∧
    decode Config.tc (.write 0x00000114#32 9#32) = .wrStatus 1 9#32 ∧
    decode Config.tc (.write 0x00000118#32 9#32) = .wrFreq 1 9#32 ∧ decode Config.tc (.read 0x00000108#32) = .rdFreq 0 := by
  decide

/-- Sample words: P6 reads frame 4 L of voice 1 at 0x00020020; the last word of voice 1 is at 0x000207FC. -/
theorem test_decode_out :
    decode Config.tc (.read 0x00020020#32) = .rdOut 1 4#13 .left ∧
    decode Config.tc (.read 0x000207FC#32) = .rdOut 1 255#13 .right := by decide

/-- Bus errors of V-BUS-12 and V-BUS-15 to V-BUS-18. -/
theorem test_decode_busErr : ∀ x ∈ ([.read 0x00000006#32, .write 0x00000120#32 0x01000000#32, .write 0x00010000#32 0#32,
      .read 0x00020800#32, .read 0x00000200#32, .read 0x00030000#32] : List Txn),
    decode Config.tc x = .busErr x := by decide

/-- Word lists of a length R140 does not give are rejected by name. -/
theorem test_decode_words_rejected :
    decodeWords Config.tc [] = .error .empty ∧ decodeWords Config.tc [0x100#32, 0#32, 0#32] = .error .tooLong ∧
    decodeWords Config.tc [0x100#32, 0x01000000#32] = .ok (.vinit 0) := by decide

/-- A table word alone: a legal command word is a write of it to CMD(0), any other word a read; the next step runs it. -/
theorem test_table_word :
    decodeTableWord 32 0x02000000 = some (.vrender 0 0#16) ∧ decodeTableWord 32 0xE0 = some .rdMasterVol ∧
    decodeTableWord 64 0x0000000F00000008 = some (.wrCh1Vol 15#32) ∧
    step (State.reset.withFetchWord 32 0xE0) = .next { State.reset with reply := some 0x00004000#32 } :=
  ⟨by decide, by decide, by decide, (guardConfig_of_wf (by decide)).trans rfl⟩

/-! ## Helpers: a state after an operation, and a small ready state -/

/-- The state after `i`, or `s` where `i` stops. -/
def run (i : Instr) (s : State) : State :=
  match exec i s with
  | .next t => t
  | _ => s

/-- The word `i` returns. -/
def reads (i : Instr) (s : State) : Option Word := (run i s).reply

/-- Voice 0 of a block of configuration TC, alive, at pitch `f`, fresh from VINIT, with zeros to draw. -/
def ready (f : Word) : State :=
  setVoice State.reset 0
    { alive := true, err := .none, freq := f, hid := VoiceState.init Config.tc, feed := ⟨List.replicate 8 0#32, 0⟩ }

/-- The same voice with error `e` recorded. -/
def failed (e : ErrCode) : State := setVoice State.reset 0 { getVoice (ready 0#32) 0 with err := e }

/-- 440.0 -/
def a4 : Word := 0x43DC0000#32

/-! ## Bus operations (95_test_vectors.md section 3.1) -/

/-- V-BUS-1 to V-BUS-3. -/
theorem test_param_clamp :
    reads .rdCh1Vol (run (.wrCh1Vol 20#32) State.reset) = some 0x0000000F#32 ∧
    reads .rdCh1Vol (run (.wrCh1Vol 0xFFFFFFFF#32) State.reset) = some 0#32 ∧
    reads .rdCh2Detune (run (.wrCh2Detune 0xFFFFFFE2#32) State.reset) = some 0xFFFFFFE8#32 := by decide

/-- V-BUS-4 to V-BUS-8. -/
theorem test_param_clamp_ends :
    reads .rdCh1SweepAmt (run (.wrCh1SweepAmt 0x80000000#32) State.reset) = some 0xFFFFFFF9#32 ∧
    reads .rdCh1En (run (.wrCh1En 2#32) State.reset) = some 1#32 ∧
    reads .rdMasterVol (run (.wrMasterVol 40000#32) State.reset) = some 0x00008000#32 ∧
    reads .rdMasterVol State.reset = some 0x00004000#32 ∧ reads .rdCh4NoiseFreq State.reset = some 0#32 ∧
    reads .rdVibrato (run (.wrVibrato 9#32) State.reset) = some 9#32 := by decide

/-- V-BUS-9 to V-BUS-11. -/
theorem test_reserved_and_ginfo :
    reads (.rdRsv 0x28#32) (run (.wrRsv 0x28#32 7#32) State.reset) = some 0#32 ∧
    reads .rdGstatus (run (.wrRsv 0x28#32 7#32) State.reset) = some 0#32 ∧
    reads .rdGinfo (run (.wrGinfo 5#32) State.reset) = some 0x01000002#32 := by decide

/-- V-BUS-12 to V-BUS-14. -/
theorem test_buserr :
    reads (.busErr (.read 0x6#32)) State.reset = some 0#32 ∧
    reads .rdGstatus (run (.busErr (.read 0x6#32)) State.reset) = some 1#32 ∧
    reads .rdGstatus (run (.wrGstatus 0#32) { State.reset with busErr := true }) = some 1#32 ∧
    reads .rdGstatus (run (.wrGstatus 0xFFFFFFFF#32) { State.reset with busErr := true }) = some 0#32 := by decide

/-- V-BUS-19 to V-BUS-22. -/
theorem test_voice_registers :
    reads (.rdFreq 0) (run (.wrFreq 0 0xC3DC0000#32) State.reset) = some 0xC3DC0000#32 ∧
    reads (.rdStatus 0) (run (.wrStatus 0 0xFFFFFFFF#32) (run (.vinit 0) State.reset)) = some 1#32 ∧
    reads (.rdCmd 0) (run (.vinit 0) State.reset) = some 0#32 := by decide

/-! ## Commands and errors (95_test_vectors.md section 3.2) -/

/-- V-CMD-1, V-CMD-13, V-CMD-14, V-CMD-16, V-CMD-17. -/
theorem test_vinit_vfree :
    reads (.rdStatus 0) (run (.vinit 0) State.reset) = some 0x00000001#32 ∧
    reads (.rdStatus 0) (run (.vfree 0) (ready 0#32)) = some 0x00000000#32 ∧
    reads (.rdStatus 0) (run (.vfree 0) (failed .illegalCmd)) = some 0x00000100#32 ∧
    reads (.rdStatus 0) (run (.vfree 0) State.reset) = some 0x00000000#32 ∧
    reads (.rdStatus 0) (run (.vinit 0) (failed .badCount)) = some 0x00000001#32 := by decide

/-- V-CMD-2 to V-CMD-6. -/
theorem test_vrender_errors :
    reads (.rdStatus 0) (run (.vrender 0 8#16) State.reset) = some 0x00000200#32 ∧
    reads (.rdStatus 0) (run (.vrender 0 8#16) (ready 0#32)) = some 0x00000401#32 ∧
    reads (.rdStatus 0) (run (.vrender 0 300#16) (failed .badFreq)) = some 0x00000401#32 ∧
    reads (.rdStatus 0) (run (.vrender 0 300#16) (ready a4)) = some 0x00000301#32 ∧
    reads (.rdStatus 0) (run (.vrender 0 256#16) (ready 0#32)) = some 0x00000401#32 := by decide

/-- V-CMD-7, V-CMD-15, V-CMD-18 to V-CMD-20. -/
theorem test_vrender_zero_and_freq :
    reads (.rdStatus 0) (run (.vrender 0 0#16) (ready 0#32)) = some 0x00000001#32 ∧
    reads (.rdStatus 0) (run (.vrender 0 0#16) State.reset) = some 0x00000200#32 ∧
    reads (.rdStatus 0) (run (.vrender 0 1#16) (ready 0x7F800000#32)) = some 0x00000401#32 ∧
    reads (.rdStatus 0) (run (.vrender 0 1#16) (ready 0x7FC00000#32)) = some 0x00000401#32 ∧
    reads (.rdStatus 0) (run (.vrender 0 1#16) (ready 0x80000000#32)) = some 0x00000401#32 := by decide

/-- V-CMD-8, V-CMD-12. -/
theorem test_cmdIllegal :
    reads (.rdStatus 0) (run (.cmdIllegal 0 0x02010008#32) (ready 0#32)) = some 0x00000101#32 ∧
    reads (.rdStatus 0) (run (.cmdIllegal 0 0x04000000#32) State.reset) = some 0x00000100#32 := by decide

/-! ## Binary32 and wavelengths (95_test_vectors.md section 3.3) -/

/-- The quotients of V-WL-1, V-WL-5, V-WL-8 to V-WL-10. -/
theorem test_div :
    F32.div (F32.ofNat 44100) 0x43DC0000#32 = 0x42C8745D#32 ∧ F32.div (F32.ofNat 44100) 0x462C4800#32 = 0x407FFA0E#32 ∧
    F32.div (F32.ofNat 44100) 0x47C35000#32 = 0x3EE1CAC1#32 ∧ F32.div (F32.ofNat 44100) 0x7F61B1E6#32 = 0x07436582#32 ∧
    F32.div (F32.ofNat 44100) 0x0DA24260#32 = 0x7907E4C4#32 := by decide

/-- Results worked by hand: 2^-149 + 2^-149; 2^24 + 1 is a tie and goes to even; half the smallest subnormal is a tie and
goes to 0; the greatest finite value doubled is infinity. -/
theorem test_rounding :
    F32.add 0x00000001#32 0x00000001#32 = 0x00000002#32 ∧ F32.add 0x4B800000#32 0x3F800000#32 = 0x4B800000#32 ∧
    F32.mul 0x00000001#32 0x3F000000#32 = 0x00000000#32 ∧ F32.mul 0x7F7FFFFF#32 0x40000000#32 = 0x7F800000#32 ∧
    F32.sub 0x3F800000#32 0x3F800000#32 = 0x00000000#32 := by decide

/-- V-WL-1 to V-WL-6. -/
theorem test_wavelength :
    wavelength Config.tc 0x43DC0000#32 = 100 ∧ wavelength Config.tc 0x43DC8000#32 = 100 ∧
    wavelength Config.tc 0x472C4400#32 = 1 ∧ wavelength Config.tc 0x462C4400#32 = 4 ∧
    wavelength Config.tc 0x462C4800#32 = 3 ∧ wavelength Config.tc 0x41200000#32 = 4410 := by decide

/-- V-WL-7 to V-WL-11: one below the range, zeros, the saturated one, a long one. -/
theorem test_wavelength_corners :
    wavelength Config.tc 0x411FD70A#32 = 4414 ∧ wavelength Config.tc 0x47C35000#32 = 0 ∧
    wavelength Config.tc 0x7F61B1E6#32 = 0 ∧ wavelength Config.tc 0x0DA24260#32 = 2147483647 ∧
    wavelength Config.tc 0x3F000000#32 = 88200 := by decide

/-- V-WL-12, the columns 0, 12 and -12, which do not depend on TC's MULT. -/
theorem test_detuned : detunedWlen Config.tc a4 0 = 100 ∧ detunedWlen Config.tc a4 12 = 50 ∧
    detunedWlen Config.tc a4 (-12) = 200 := by decide

/-- Lengths and periods of L1-3 and L1-5, ends of the ranges. -/
theorem test_derived : envLength Config.tc 0 = 183 ∧ envLength Config.tc 6 = 1297 ∧ envLength Config.tc 15 = 2940 ∧
    sweepPeriod Config.tc 0 = 367 ∧ sweepPeriod Config.tc 7 = 2940 ∧ remapSweep 7 = 1 ∧ remapSweep (-7) = -1 ∧
    remapSweep 1 = 7 := by decide

/-! ## Channels (95_test_vectors.md sections 3.4 to 3.6) -/

/-- A tone channel switched on, volume 15, no envelope. -/
def tone : ToneParams := { ToneParams.reset with en := 1, vol := 15 }

/-- Derived quantities: duty 50 per cent, envelope length 183, sweep period 367, amount `amt` after the remap. -/
def der (amt : Int) : ToneDerived := { d8 := 4, envLen := 183, swRate := 367, swAmt := amt }

/-- A tone state. -/
def st (w ph ctr : Nat) : ToneState := { wlen := w, phase := ph, sweepCtr := ctr, env := ⟨0, 14⟩ }

/-- V-TONE-1, V-TONE-2, V-TONE-5, V-TONE-6, V-TONE-7, V-TONE-11. -/
theorem test_tone_level :
    toneOut Config.tc 4410 tone (der 0) (st 100 50 0) = 15 ∧ toneOut Config.tc 4410 tone (der 0) (st 100 51 0) = 0 ∧
    toneOut Config.tc 4410 { tone with en := 0 } (der 0) (st 100 50 0) = 0 ∧
    toneOut Config.tc 4410 tone (der 0) (st 3 0 0) = 0 ∧ toneOut Config.tc 4410 tone (der 0) (st 0 0 0) = 0 ∧
    toneOut Config.tc 4410 { tone with envEn := 1 } (der 0) (st 100 50 0) = 14 := by decide

/-- V-TONE-6 to V-TONE-10. -/
theorem test_tone_phase : phaseNext 3 0 = 1 ∧ phaseNext 0 0 = 0 ∧ phaseNext 50 70 = 21 ∧ phaseNext 100 99 = 0 ∧
    phaseNext 100 120 = 21 := by decide

/-- V-SWP-1 to V-SWP-3, V-SWP-6, V-SWP-8. -/
theorem test_sweep_event :
    (sweepStep Config.tc 4410 .one { tone with sweepEn := 1 } (der 1) (st 100 0 366)).wlen = 49 ∧
    (sweepStep Config.tc 4410 .two { tone with sweepEn := 1 } (der 1) (st 100 0 366)).wlen = 50 ∧
    (sweepStep Config.tc 4410 .two { tone with sweepEn := 1 } (der 2) (st 200 0 366)).wlen = 150 ∧
    (sweepStep Config.tc 4410 .two { tone with sweepEn := 1 } (der (-1)) (st 225 0 366)).wlen = 337 ∧
    (sweepStep Config.tc 4410 .one { tone with sweepEn := 1 } (der (-1)) (st 4000 0 366)).wlen = 6000 := by decide

/-- V-SWP-9 to V-SWP-11, V-SWP-13, V-SWP-14. -/
theorem test_sweep_no_change :
    sweepStep Config.tc 4410 .one { tone with sweepEn := 1 } (der 0) (st 100 0 366) = st 100 0 0 ∧
    sweepStep Config.tc 4410 .one tone (der 1) (st 100 0 366) = st 100 0 0 ∧
    sweepStep Config.tc 4410 .one { tone with sweepEn := 1 } (der 1) (st 2 0 366) = st 2 0 0 ∧
    (sweepStep Config.tc 4410 .one tone (der 1) (st 100 0 500)).sweepCtr = 0 ∧
    (toneNext Config.tc 4410 .one { tone with sweepEn := 1 } (der 1) (st 100 60 366)).phase = 12 := by decide

/-- V-ENV-1 (frames 182 and 183), V-ENV-2, V-ENV-3, V-ENV-5. -/
theorem test_envelope : envelopeStep 0 183 ⟨181, 15⟩ = ⟨182, 15⟩ ∧ envelopeStep 0 183 ⟨182, 15⟩ = ⟨0, 14⟩ ∧
    envelopeStep 0 183 ⟨182, 0⟩ = ⟨0, 0⟩ ∧ envelopeStep 1 183 ⟨182, 0⟩ = ⟨0, 15⟩ ∧
    envelopeStep 0 183 ⟨300, 9⟩ = ⟨0, 8⟩ := by decide

/-- V-TRI-2 to V-TRI-4, V-TRI-6 to V-TRI-8. -/
theorem test_triangle :
    triStep Config.tc 4410 ⟨1, 0, 8⟩ 100 96#32 = (7, 97#32) ∧ triStep Config.tc 4410 ⟨1, 0, 15⟩ 64 10#32 = (10, 11#32) ∧
    (triStep Config.tc 4410 ⟨1, 0, 15⟩ 4 3#32).1 = 8 ∧ triStep Config.tc 4410 ⟨1, 0, 15⟩ 100 100#32 = (15, 1#32) ∧
    (triStep Config.tc 4410 ⟨1, 0, 15⟩ 200 70#32).1 = 4 ∧ triStep Config.tc 4410 ⟨1, 0, 15⟩ 0 7#32 = (0, 8#32) := by decide

/-- V-NOI-2, V-NOI-3, V-NOI-7 to V-NOI-9, and two states of L1-4. -/
theorem test_noise :
    noiseOut { Params.reset.ch4 with en := 1, vol := 12 } ⟨2, 0, 2#16, ⟨0, 0⟩⟩ = 12 ∧
    noiseOut { Params.reset.ch4 with en := 1, vol := 12 } ⟨2, 0, 1#16, ⟨0, 0⟩⟩ = 0 ∧
    lfsrStep 0x0001#16 0 = 0x4000#16 ∧ lfsrStep 0x0040#16 1 = 0x4020#16 ∧ lfsrStep 0x0040#16 0 = 0x0020#16 ∧
    lfsrStep 0x0002#16 0 = 0x4001#16 ∧ lfsrStep 0x0201#16 1 = 0x4100#16 := by decide

/-- V-NOI-1 (registers 0, 3 and 15) and V-NOI-11. -/
theorem test_noise_wavelength :
    noiseWlen Config.tc Params.reset.ch4 a4 = 2 ∧ noiseWlen Config.tc { Params.reset.ch4 with noiseFreq := 3 } a4 = 11 ∧
    noiseWlen Config.tc { Params.reset.ch4 with noiseFreq := 15 } a4 = 441 ∧
    noiseWlen Config.tc { Params.reset.ch4 with noiseFreqMode := 1 } a4 = 100 := by decide

/-! ## The mix and a whole render (95_test_vectors.md sections 3.7 and 4) -/

/-- One mix step under TC from cleared memories. -/
def mix0 (mv : Int) (l1 l2 l3 l4 : Nat) (d : F32) : F32 :=
  (mixStep Config.tc (masterGain mv) l1 l2 l3 l4 d d ⟨0#32, 0#32, 0#32, 0#32⟩).yPrev

/-- V-MIX-1 to V-MIX-3. -/
theorem test_mix : mix0 16384 15 15 0 0 0#32 = 0x3E000000#32 ∧ mix0 16384 0 0 0 0 0#32 = 0xBEC00000#32 ∧
    mix0 16384 15 15 15 15 0#32 = 0x3EC00000#32 := by decide +kernel

/-- V-MIX-4a, V-MIX-4b, V-MIX-7, V-MIX-8. -/
theorem test_mix_dither : mix0 16384 15 15 15 15 0x3F800000#32 = 0x3EC60000#32 ∧
    mix0 16384 0 0 0 0 0xBF800000#32 = 0xBEC00000#32 ∧ mix0 32768 15 15 15 15 0#32 = 0x3F400000#32 ∧
    mix0 16384 15 0 0 0 0#32 = 0xBE000000#32 := by decide +kernel

/-- V-MIX-9, V-MIX-10, V-MIX-11, V-MIX-12, V-MIX-13. -/
theorem test_mix_parts : dcBlock 0x3E000000#32 0x3E000000#32 0x3E000000#32 = 0x3DFFBE78#32 ∧
    rescale (F32.ofNat 22) = 0x3EEEEEF0#32 ∧ dither Config.tc 0x3F800000#32 (F32.ofNat 30) = 0x41F3C000#32 ∧
    spow Config.tc 0xBF000000#32 = 0xBF000000#32 ∧ lowPass Config.tc 0#32 F32.one = 0x3F000000#32 := by decide +kernel

/-- V-MIX-14, both sides of s = 15. -/
theorem test_rescale : rescale (F32.ofNat 0) = 0xBF800000#32 ∧ rescale (F32.ofNat 14) = 0xBD888888#32 ∧
    rescale (F32.ofNat 15) = 0#32 ∧ rescale (F32.ofNat 16) = 0x3D888890#32 ∧ rescale (F32.ofNat 30) = 0x3F800000#32 := by
  decide +kernel

/-- P1's start: channel 1 on, volume 15, duty 50 per cent, 440 Hz. -/
def p1 : State := run (.wrCh1Duty 2#32) (run (.wrCh1Vol 15#32) (run (.wrCh1En 1#32) (ready a4)))

/-- P1: the words of frames 0 and 1, right as left. -/
theorem test_p1_words : reads (.rdOut 0 0#13 .left) (run (.vrender 0 2#16) p1) = some 0xBE000000#32 ∧
    reads (.rdOut 0 1#13 .right) (run (.vrender 0 2#16) p1) = some 0xBE3FDF3C#32 := by decide +kernel

/-- P1: the end of the hidden state after two frames, as its rules give it. -/
theorem test_p1_counters :
    let h := (getVoice (run (.vrender 0 2#16) p1) 0).hid
    h.cachedFreq = a4 ∧ h.ch1.wlen = 100 ∧ h.ch2.wlen = 100 ∧ h.wlen3 = 100 ∧ h.wlen4 = 2 ∧ h.maxWlen = 4410 ∧
    h.ch1.phase = 2 ∧ h.phase3 = 2#32 ∧ h.phase4 = 0 ∧ h.ch1.env = ⟨2, 15⟩ ∧ h.ch2.sweepCtr = 2 ∧
    h.lfsr = 0x4000#16 := by decide +kernel

/-- A word no render has written stops the model, a word beyond the buffer is a bus error (20_memory.md R108, V-BUS-17). -/
theorem test_rdOut : exec (.rdOut 0 0#13 .left) State.reset = .fault (.unwrittenOutput 0 0#13 .left) ∧
    reads (.rdOut 1 256#13 .left) State.reset = some 0#32 := ⟨rfl, by decide⟩

/-- Lines of host programs, as 30_encoding.md R150 and R151 and the listings of section 4 give their transactions. -/
theorem test_assembler :
    (Line.tone1 15 2).txns = [.write 0x0#32 1#32, .write 0x8#32 15#32, .write 0x18#32 2#32] ∧
    (Line.wrf 0 ⟨false, 440, 1⟩).txns = [.write 0x108#32 0x43DC0000#32] ∧
    (Line.rdout 0 7#13 .left).txns = [.read 0x10038#32] ∧ Line.clrbuserr.txns = [.write 0xF0#32 1#32] := by decide

/-! ## Witnesses: a concrete state and operands that meet the hypotheses of each statement -/

/-- Configurations and operations the encoding statements range over: the ends of each operand's range. -/
theorem witness_EncodeThenDecode : (Instr.rdOut 1 255#13 .right).wf Config.tc = true ∧
    (Instr.wrRsv 0x11C#32 1#32).wf Config.tc = true ∧ (Instr.vrender 1 0xFFFF#16).wf Config.tc = true ∧
    (Instr.cmdIllegal 0 0#32).wf Config.tc = true ∧ (Instr.busErr (.read 0x20800#32)).wf Config.tc = true ∧
    (Instr.wrVibrato 0#32).wf Config.tc = true := by decide

theorem witness_DecodeThenEncode : Config.tc.wf = true := by decide

theorem witness_DecodeGivesWellFormed : Config.tc.wf = true := by decide

/-- The reset state with one event pending. -/
def pending (e : Event) : State := { State.reset with inbox := [e] }

theorem witness_StepRunsDecoded : (pending (.txn (encode .rdGinfo))).cfg.wf = true ∧
    Instr.rdGinfo.wf (pending (.txn (encode .rdGinfo))).cfg = true ∧
    (pending (.txn (encode .rdGinfo))).inbox = .txn (encode .rdGinfo) :: [] := ⟨by decide, rfl, rfl⟩

theorem witness_IdleStepChangesNothing : State.reset.cfg.wf = true ∧ State.reset.inbox = [] := ⟨by decide, rfl⟩

/-- A configuration for each of the constraints of 00_scope.md R10, broken at the edge. -/
theorem witness_BadConfigRefused :
    (¬ (4411 : Nat) ≤ wavelength { Config.tc with minWlen := 4411 } Config.tc.minFreq) ∧
    ({ Config.tc with lfsrSeed := 0#16 } : Config).lfsrSeed = 0 ∧
    F32.lt (({ Config.tc with noiseFreqs := Vector.replicate 16 0x42C80000#32 } : Config).noiseFreqAt 0)
      (({ Config.tc with noiseFreqs := Vector.replicate 16 0x42C80000#32 } : Config).noiseFreqAt 1) = false ∧
    ({ Config.tc with mult := Vector.replicate 49 0x40000000#32 } : Config).multAt 0 ≠ F32.one ∧
    F32.lt 0x3F800000#32 F32.one = false := by decide

theorem witness_BlockResetValues : (pending .reset).cfg.wf = true ∧ (pending .reset).inbox = .reset :: [] :=
  ⟨by decide, rfl⟩

theorem witness_ConfigNeverChanges : step State.reset = .next State.reset := (guardConfig_of_wf (by decide)).trans rfl

/-- The Parameter Set of the reset state is legal. -/
theorem witness_ParamReadResult : State.reset.params.legal := by
  intro p
  cases p <;> exact (by decide)

/-- The two ways a register changes: a write of MASTER_VOL, and block reset after it. -/
theorem witness_OnlyWritesChangeParams :
    (∃ t, step (pending (.txn (.write 0xE0#32 1#32))) = .next t ∧ t.params ≠ State.reset.params) ∧
    ∃ t, step { pending .reset with params := { Params.reset with vibrato := 1 } } = .next t ∧
      t.params ≠ { Params.reset with vibrato := 1 } := by
  refine ⟨⟨_, (guardConfig_of_wf (by decide)).trans rfl, by decide⟩, ⟨_, (guardConfig_of_wf (by decide)).trans rfl, by decide⟩⟩

/-- The ends of the ranges of R183, and the reserved word of the last present voice. -/
theorem witness_ReservedLocations :
    ([0x28#32, 0x3C#32, 0x68#32, 0x7C#32, 0x8C#32, 0xBC#32, 0xE8#32, 0xEC#32, 0xF8#32, 0xFC#32] : List Word).all
      (fun a => a.toNat % 4 == 0) = true ∧
    (1 : VoiceId).val < Config.tc.numVoices ∧ (0x11C#32).toNat = 0x10C + 0x10 * (1 : VoiceId).val := by decide

theorem witness_GinfoAccess : State.reset.cfg.wf = true := by decide

/-- One transaction of each kind R180 lists. -/
theorem witness_BusErrorEffect : ∀ x ∈ ([.read 0x6#32, .read 0x120#32, .read 0x200#32, .write 0x10000#32 0#32, .read 0x10800#32,
      .read 0x30000#32, .write 0xFFFFFFFC#32 0#32] : List Txn), x.isBusError Config.tc = true := by decide

theorem witness_MisalignedIsBusError : (0x1#32).toNat % 4 ≠ 0 ∧ (0x2#32).toNat % 4 ≠ 0 ∧ (0x3#32).toNat % 4 ≠ 0 ∧
    (0xFFFFFFFF#32).toNat % 4 ≠ 0 := by decide

/-- BUSERR set by a misaligned read, and cleared by a write of 1. -/
theorem witness_BuserrLifecycle :
    (∃ t, step (pending (.txn (.read 0x6#32))) = .next t ∧ State.reset.busErr = false ∧ t.busErr = true) ∧
    ∃ t, step { pending (.txn (.write 0xF0#32 1#32)) with busErr := true } = .next t ∧ t.busErr = false := by
  refine ⟨⟨_, (guardConfig_of_wf (by decide)).trans rfl, rfl, rfl⟩, ⟨_, (guardConfig_of_wf (by decide)).trans rfl, by decide⟩⟩

/-- The first and the last present voice. -/
theorem witness_VoiceRegisterReads : (0 : VoiceId).val < State.reset.cfg.numVoices ∧
    (1 : VoiceId).val < State.reset.cfg.numVoices := by decide

theorem witness_VoiceRegisterWrites : (0 : VoiceId).val < State.reset.cfg.numVoices ∧
    (1 : VoiceId).val < State.reset.cfg.numVoices := by decide

/-- The first and the last absent voice. -/
theorem witness_AbsentVoiceIsBusError : State.reset.cfg.numVoices ≤ (2 : VoiceId).val ∧
    State.reset.cfg.numVoices ≤ (15 : VoiceId).val := by decide

/-- The last word of the last buffer, written; and, in the reset state, not. -/
theorem witness_RdOutReadsStoredWord : (1 : VoiceId).val < State.reset.cfg.numVoices ∧
    (255#13).toNat < State.reset.cfg.blockFrames ∧
    (∀ j, j < 4 → (outWrite 1 255 .right a4 []).readByte (0x10000 * 2 + 8 * 255 + 4 * 1 + j) =
      some (a4.extractLsb' (8 * j) 8)) ∧
    State.reset.mem.readByte (0x10000 * 2 + 8 * 255 + 4 * 1 + 3) = none := by decide

theorem witness_ReadsChangeNothing : State.reset.cfg.wf = true ∧ (Txn.read 0x11C#32).isBusError State.reset.cfg = false ∧
    ∃ t, exec (decode State.reset.cfg (.read 0x11C#32)) State.reset = .next t := ⟨by decide, by decide, _, rfl⟩

theorem witness_VinitResult : (1 : VoiceId).val < State.reset.cfg.numVoices := by decide

/-- An alive voice and one that is not. -/
theorem witness_VfreeResult : (0 : VoiceId).val < (ready a4).cfg.numVoices ∧ (getVoice (ready a4) 0).alive = true ∧
    (getVoice (ready a4) 1).alive = false := by decide

theorem witness_CmdIllegalResult : (0 : VoiceId).val < (ready a4).cfg.numVoices ∧ decodeCmd 0x01000001#32 = .illegal := by decide

/-- A state and a count for each check of R403, at the edges: 257 of 256 frames, pitch +0.0, count 0. -/
theorem witness_VrenderChecks : (0 : VoiceId).val < (ready 0#32).cfg.numVoices ∧ (getVoice State.reset 0).alive = false ∧
    (getVoice (ready 0#32) 0).alive = true ∧ (ready 0#32).cfg.blockFrames < (257#16).toNat ∧
    (256#16).toNat ≤ (ready 0#32).cfg.blockFrames ∧ validFreq (getVoice (ready 0#32) 0).freq = false ∧
    (0#16).toNat = 0 := by decide

/-- A voice at pitch 440 renders every count from 1 to 256. -/
theorem ready_renders (n : BitVec 16) (h1 : 1 ≤ n.toNat) (hn : n.toNat ≤ 256) : (ready a4).Renders 0 n :=
  { cfgOk := by decide, memWf := rfl, present := by decide, alive := by decide, pos := h1, fits := hn, freq := by decide }

theorem witness_VrenderCompletes : (ready a4).Renders 0 1#16 ∧ (ready a4).Renders 0 256#16 :=
  ⟨ready_renders _ (by decide) (by decide), ready_renders _ (by decide) (by decide)⟩

theorem witness_RenderFramesInOrder : (ready a4).Renders 0 256#16 := ready_renders _ (by decide) (by decide)

theorem witness_SplitRender : (ready a4).Renders 0 1#16 ∧ (ready a4).Renders 0 255#16 ∧
    (1#16).toNat + (255#16).toNat ≤ (ready a4).cfg.blockFrames :=
  ⟨ready_renders _ (by decide) (by decide), ready_renders _ (by decide) (by decide), by decide⟩

theorem witness_VoiceIsolation : (ready a4).cfg.wf = true ∧ (ready a4).mem.wf = true ∧
    (∃ t, exec (.vinit 0) (ready a4) = .next t) ∧ Instr.voice? (.vinit 0) ≠ some 1 :=
  ⟨by decide, rfl, ⟨_, rfl⟩, by decide⟩

/-- Two states that differ in BUSERR and in another voice. -/
theorem witness_RenderDependsOnlyOnItsVoice : (ready a4).Renders 0 1#16 ∧
    getVoice (setVoice { ready a4 with busErr := true } 1 (getVoice (ready a4) 0)) 0 = getVoice (ready a4) 0 :=
  ⟨ready_renders _ (by decide) (by decide), getVoice_setVoice_of_ne _ _ _ _ (by decide)⟩

/-- Two states that differ in a voice's phase. -/
theorem witness_HiddenStateInvisible :
    State.SameToHost State.reset
      (setVoice State.reset 1 { getVoice State.reset 1 with hid := { VoiceState.reset with phase4 := 1 } }) ∧
    ∀ v n, Instr.rdStatus 0 ≠ .vrender v n := by
  refine ⟨⟨rfl, rfl, rfl, rfl, rfl, fun u => ?_⟩, by intros; simp⟩
  rw [getVoice_setVoice]
  split
  · rename_i h; subst h; exact ⟨rfl, rfl, rfl⟩
  · exact ⟨rfl, rfl, rfl⟩

theorem witness_DitherDraws : (ready a4).Renders 0 256#16 ∧ (∃ t, exec (.vfree 0) (ready a4) = .next t) ∧
    (∀ v n, Instr.vfree 0 = .vrender v n → ¬ (ready a4).Renders v n) ∧ (ready a4).mem.wf = true :=
  ⟨ready_renders _ (by decide) (by decide), ⟨_, rfl⟩, by intros; simp_all, rfl⟩

/-- The ready voice with its pitch already detected. -/
def held : State :=
  setVoice (ready a4) 0 { getVoice (ready a4) 0 with hid := { VoiceState.init Config.tc with cachedFreq := a4 } }

theorem held_renders (n : BitVec 16) (h1 : 1 ≤ n.toNat) (hn : n.toNat ≤ 256) : held.Renders 0 n :=
  { cfgOk := by decide, memWf := rfl, present := by decide, alive := by decide, pos := h1, fits := hn, freq := by decide }

theorem witness_DetuneNotHeardWhilePitchHeld : held.Renders 0 256#16 ∧
    (getVoice held 0).freq = (getVoice held 0).hid.cachedFreq := ⟨held_renders _ (by decide) (by decide), by decide⟩

theorem witness_VibratoHasNoEffect : (ready a4).Renders 0 256#16 := ready_renders _ (by decide) (by decide)

/-- Pitch changed and held; the ends of the valid frequencies, the first of which saturates the wavelength while 440 Hz does
not; a legal Parameter Set. -/
theorem witness_RenderStartWavelengths : (a4 ≠ (VoiceState.init Config.tc).cachedFreq ∧
    0#32 = (VoiceState.init Config.tc).cachedFreq) ∧ Config.tc.wf = true ∧
    (validFreq 0x00000001#32 = true ∧ validFreq 0x7F7FFFFF#32 = true ∧ validFreq a4 = true) ∧
    (2 ^ 31 * 2 ^ 149 ≤ F32.units (F32.round false (44100 * 2 ^ 149 * 2 ^ 149) (F32.units 0x00000001#32)) ∧
      F32.units (F32.round false (44100 * 2 ^ 149 * 2 ^ 149) (F32.units a4)) < 2 ^ 31 * 2 ^ 149) ∧ Params.reset.legal :=
  ⟨by decide, by decide, by decide, by decide +kernel, witness_ParamReadResult⟩

/-- The derived quantities of one channel: each duty setting, and each sign of the sweep amount. -/
theorem witness_Derives : (Params.reset.ch1.duty = 0 ∧ Params.reset.ch1.sweepAmt = 0) ∧
    ({ tone with duty := 1, sweepAmt := 7 }.duty = 1 ∧ 0 < { tone with duty := 1, sweepAmt := 7 }.sweepAmt) ∧
    { tone with duty := 2 }.duty = 2 ∧ ({ tone with duty := 3, sweepAmt := -7 }.duty = 3 ∧
      { tone with duty := 3, sweepAmt := -7 }.sweepAmt < 0) := by decide

theorem witness_EnvelopeSequences : 1 ≤ (1 : Nat) := by decide

/-- An event and a frame before it; in range at both ends, both signs of the amount; out of range at both ends. -/
theorem witness_SweepEvents : Config.tc.wf = true ∧ (st 100 0 365).sweepCtr + 1 < (der 1).swRate ∧
    (der 1).swRate ≤ (st 4 0 366).sweepCtr + 1 ∧ { tone with sweepEn := 1 }.sweepEn = 1 ∧
    Config.tc.minWlen ≤ (st 4 0 366).wlen ∧ (st 4410 0 366).wlen ≤ 4410 ∧ 0 < (der 1).swAmt ∧ (der (-7)).swAmt < 0 ∧
    (st 3 0 366).wlen < Config.tc.minWlen ∧ 4410 < (st 4411 0 366).wlen := by decide

theorem witness_SweepAmountRemap : (-7 : Int) ≤ -7 ∧ (-7 : Int) ≤ 7 ∧ (-7 : Int) ≠ 0 := by decide

theorem witness_OutOfRangeToneStaysSilent : (st 3 0 0).wlen < Config.tc.minWlen ∧ 4410 < (st 4411 0 0).wlen := by decide

/-- Both ends of the range with the channel enabled, one past each of them, and the channel disabled. -/
theorem witness_TriangleIndex : Config.tc.wf = true ∧ Config.tc.minWlen ≤ 4 ∧ (4410 : Nat) ≤ 4410 ∧
    (⟨1, 0, 15⟩ : TriParams).en = 1 ∧ 3 < Config.tc.minWlen ∧ 0 < Config.tc.minWlen ∧ (4410 : Nat) < 4411 ∧
    (⟨0, 0, 15⟩ : TriParams).en ≠ 1 := by decide

theorem witness_ChannelLevels : Config.tc.wf = true ∧ Params.reset.legal ∧ (st 100 0 0).env.val ≤ 15 ∧
    (⟨2, 0, 1#16, ⟨0, 15⟩⟩ : NoiseState).env.val ≤ 15 ∧ Params.reset.ch1.en = 0 ∧ Params.reset.ch4.en = 0 :=
  ⟨by decide, witness_ParamReadResult, by decide, by decide, by decide, by decide⟩

theorem witness_LfsrNeverZero : (0x7FFF#16).getLsbD 15 = false ∧ (0x0001#16).getLsbD 15 = false ∧ (0x0001#16) ≠ 0 := by decide

theorem witness_LfsrPeriods : (0x0001#16) ≠ 0 ∧ (0x7FFF#16).getLsbD 15 = false ∧ 0 < 1 ∧ 32766 < 32767 ∧ 92 < 93 := by decide

/-- The LFSR steps in this frame, or not; wavelength 0 from phase 0, the last phase below a wavelength, and a phase at it. -/
theorem witness_NoiseClock :
    ((⟨4, 3, 1#16, ⟨0, 15⟩⟩ : NoiseState).wlen ≤ (⟨4, 3, 1#16, ⟨0, 15⟩⟩ : NoiseState).phase + 1 ∧
      (⟨4, 2, 1#16, ⟨0, 15⟩⟩ : NoiseState).phase + 1 < (⟨4, 2, 1#16, ⟨0, 15⟩⟩ : NoiseState).wlen) ∧
    (⟨0, 0, 1#16, ⟨0, 15⟩⟩ : NoiseState).phase < max (⟨0, 0, 1#16, ⟨0, 15⟩⟩ : NoiseState).wlen 1 ∧
    (⟨4, 3, 1#16, ⟨0, 15⟩⟩ : NoiseState).phase < max (⟨4, 3, 1#16, ⟨0, 15⟩⟩ : NoiseState).wlen 1 ∧
    max (⟨4, 4, 1#16, ⟨0, 15⟩⟩ : NoiseState).wlen 1 ≤ (⟨4, 4, 1#16, ⟨0, 15⟩⟩ : NoiseState).phase ∧ (1 : Nat) ≤ 1 := by decide

/-- 0, 1 and a value above 1, for the exponent 0.5. -/
theorem witness_PowProperties : F32.le F32.zero F32.zero = true ∧ F32.le F32.zero F32.one = true ∧
    F32.le F32.one F32.one = true ∧ F32.le F32.zero 0x40000000#32 = true ∧ F32.lt F32.zero 0x3F000000#32 = true ∧
    0x3F000000#32 ≠ F32.one ∧ F32.lt F32.zero 0x40000000#32 = true ∧ 0x40000000#32 ≠ F32.one ∧
    F32.lt F32.one 0x40000000#32 = true := by decide

/-- The tie between 2^24 and 2^24 + 2 units, and a neighbour as near. -/
theorem witness_RoundsToNearestEven : 0 < 1 ∧ F32.isInf (F32.round false (2 ^ 24 + 1) 1) = false ∧
    F32.mag 0x01000001#32 < 0x7F800000 ∧ F32.units 0x01000001#32 = 2 ^ 24 + 2 ∧
    F32.units (F32.round false (2 ^ 24 + 1) 1) = 2 ^ 24 := by decide

theorem witness_OperationsRoundOnce : F32.mag 0x3F800000#32 < 0x7F800000 ∧ F32.mag 0x00000001#32 < 0x7F800000 ∧
    F32.value 0x3F800000#32 + F32.value 0x00000001#32 ≠ 0 ∧ F32.value 0x3F800000#32 - F32.value 0x00000001#32 ≠ 0 ∧
    F32.units 0x00000001#32 ≠ 0 ∧ 2 ^ 24 ≤ 2 ^ 24 := by decide +kernel

theorem witness_InvariantAtReset : Config.tc.wf = true := by decide

/-- The ready state meets the invariant, with an event pending that gives a next state. -/
theorem witness_InvariantKept : (ready a4).Inv ∧ step (ready a4) = .next (ready a4) := by
  refine ⟨⟨by decide, witness_ParamReadResult, rfl, ?_, ?_⟩, (guardConfig_of_wf (by decide)).trans rfl⟩
  · intro cell hcell; cases hcell
  · intro v hv
    rw [ready, getVoice_setVoice] at hv ⊢
    split
    · exact ⟨⟨by decide, by decide, by decide, by decide, by decide⟩, ⟨rfl, by decide, by decide, by decide, by decide,
        by decide, by decide, by decide, by decide, by decide, by decide, by decide, by decide⟩⟩
    · rename_i h
      rw [if_neg h] at hv
      rw [State.reset, getVoice_resetWith] at hv
      cases hv

/-- ALIVE rises at VINIT and falls at VFREE; ERR changes at an illegal command; FREQ changes at a write of it. -/
theorem witness_VoiceStatusLifecycle : (∀ rest, (pending (.txn (encode (.vinit 0)))).inbox ≠ .reset :: rest) ∧
    (∃ t, step (pending (.txn (encode (.vinit 0)))) = .next t ∧ (getVoice State.reset 0).alive = false ∧
      (getVoice t 0).alive = true) ∧
    (∃ t, step { ready a4 with inbox := [.txn (encode (.vfree 0))] } = .next t ∧ (getVoice (ready a4) 0).alive = true ∧
      (getVoice t 0).alive = false) ∧
    (∃ t, step (pending (.txn (encode (.cmdIllegal 0 0#32)))) = .next t ∧ (getVoice t 0).err ≠ .none) ∧
    ∃ t, step (pending (.txn (encode (.wrFreq 0 a4)))) = .next t ∧ (getVoice t 0).freq ≠ (getVoice State.reset 0).freq :=
  ⟨by intro rest; simp [pending], ⟨_, (guardConfig_of_wf (by decide)).trans rfl, rfl, rfl⟩,
    ⟨_, (guardConfig_of_wf (by decide)).trans rfl, rfl, rfl⟩, ⟨_, (guardConfig_of_wf (by decide)).trans rfl, by decide⟩,
    ⟨_, (guardConfig_of_wf (by decide)).trans rfl, by decide⟩⟩

/-- A render changes memory. -/
theorem witness_OnlyRenderWritesBuffers_render : (run (.vrender 0 1#16) (ready a4)).mem ≠ (ready a4).mem := by
  decide +kernel

/-- Block reset of a block whose memory lists a byte changes its memory. -/
theorem witness_OnlyRenderWritesBuffers : ∃ t, step { pending .reset with mem := [(0x10000, 1#8)] } = .next t ∧
    t.mem ≠ [(0x10000, 1#8)] := ⟨_, (guardConfig_of_wf (by decide)).trans rfl, by decide⟩

theorem witness_NeverTraps : State.reset.cfg.wf = true := by decide

theorem witness_BootSequence : State.reset.cfg.wf = true ∧ State.reset.mem.wf = true ∧
    (1 : VoiceId).val < State.reset.cfg.numVoices ∧ validFreq 0x7F7FFFFF#32 = true ∧ validFreq 0x00000001#32 = true ∧
    1 ≤ (256#16).toNat ∧ (256#16).toNat ≤ State.reset.cfg.blockFrames := by decide

end Sys2Proof.Machine.Tests
end

/-! PROOFS. The statements of 00_scope.md: the configuration a block is built with (R9, R10), POW (R16), and binary32
rounding and its operations (R14, R15). -/

namespace Sys2Proof

/-! ## Configurations (R9, R10) -/

/-- The constraints of R10, as the check of a configuration holds them. -/
theorem Config.wf_constraints {c : Config} (h : c.wf = true) :
    c.minWlen ≤ wavelength c c.minFreq ∧ c.lfsrSeed ≠ 0 ∧
      (∀ i < 15, F32.lt (c.noiseFreqAt i) (c.noiseFreqAt (i + 1)) = true) ∧ c.multAt 0 = F32.one ∧
      F32.le F32.zero c.lpfBeta = true ∧ F32.lt c.lpfBeta F32.one = true := by
  simp only [Config.wf, Bool.and_eq_true, decide_eq_true_eq, List.all_eq_true, List.mem_range, and_assoc] at h
  obtain ⟨-, -, -, -, -, -, -, -, hwlen, hseed, -, -, hrise, -, -, hmult, -, -, -, -, -, -, -, hlo, hhi, -⟩ := h
  refine ⟨hwlen, fun h0 => ?_, hrise, hmult, hlo, hhi⟩
  simp [h0] at hseed

namespace Machine

/-- A configuration that is not legal is refused, whatever event is pending. -/
theorem step_of_not_wf {s : State} (h : s.cfg.wf = false) : step s = .refused .badConfig := by
  unfold step
  split <;> simp [guardConfig, h]

/-- No operation changes the configuration. -/
theorem Effect.cfg_eq {i : Instr} {s t : State} (h : Effect i s t) : t.cfg = s.cfg := by
  cases h <;> rfl

end Machine

/-! ## The order of binary32 words (R14) -/

/-- A word is its sign and its bits 30:0. -/
theorem F32.eq_of_neg?_mag {x y : F32} (hs : F32.neg? x = F32.neg? y) (hm : F32.mag x = F32.mag y) : x = y := by
  apply BitVec.eq_of_toNat_eq
  have hx := x.isLt
  have hy := y.isLt
  simp only [F32.neg?, BitVec.getLsbD, Nat.testBit_eq_decide_div_mod_eq, decide_eq_decide] at hs
  simp only [F32.mag] at hm
  omega

/-- Bits 30:0 order the magnitudes, both ways. -/
theorem F32.units_lt_units_iff {x y : F32} : F32.units x < F32.units y ↔ F32.mag x < F32.mag y := by
  refine ⟨fun h => ?_, F32.units_lt_units⟩
  rcases Nat.lt_trichotomy (F32.mag x) (F32.mag y) with hlt | heq | hgt
  · exact hlt
  · simp only [F32.units_eq, heq, lt_self_iff_false] at h
  · exact absurd (F32.units_lt_units hgt) (by omega)

/-- The key of a word orders it as its value does. -/
theorem F32.key_lt_key_iff (x y : F32) : F32.key x < F32.key y ↔ F32.value x < F32.value y := by
  have hxy := F32.units_lt_units_iff (x := x) (y := y)
  have hyx := F32.units_lt_units_iff (x := y) (y := x)
  have hx := F32.units_eq_zero (x := x)
  have hy := F32.units_eq_zero (x := y)
  unfold F32.key F32.value
  split <;> split <;> omega

theorem F32.lt_iff {x y : F32} :
    F32.lt x y = true ↔ F32.isNaN x = false ∧ F32.isNaN y = false ∧ F32.key x < F32.key y := by
  simp [F32.lt, and_assoc]

theorem F32.le_iff {x y : F32} :
    F32.le x y = true ↔ F32.isNaN x = false ∧ F32.isNaN y = false ∧ F32.key x ≤ F32.key y := by
  simp [F32.le, and_assoc]

theorem F32.isNaN_of_finite {x : F32} (h : F32.mag x < 0x7F800000) : F32.isNaN x = false :=
  decide_eq_false (by omega)

theorem F32.isInf_of_finite {x : F32} (h : F32.mag x < 0x7F800000) : F32.isInf x = false :=
  decide_eq_false (by omega)

theorem F32.lt_iff_value {x y : F32} (hx : F32.mag x < 0x7F800000) (hy : F32.mag y < 0x7F800000) :
    F32.lt x y = true ↔ F32.value x < F32.value y := by
  simp [F32.lt_iff, F32.isNaN_of_finite hx, F32.isNaN_of_finite hy, F32.key_lt_key_iff]

theorem F32.le_iff_value {x y : F32} (hx : F32.mag x < 0x7F800000) (hy : F32.mag y < 0x7F800000) :
    F32.le x y = true ↔ F32.value x ≤ F32.value y := by
  have h := F32.key_lt_key_iff y x
  simp only [F32.le_iff, F32.isNaN_of_finite hx, F32.isNaN_of_finite hy, true_and]
  omega

/-! ## POW (R16) -/

/-- A value at most 1 that is not below 1 is the word of 1.0. -/
theorem F32.eq_one_of_le_of_not_lt {a : F32} (hle : F32.le a F32.one = true) (hlt : F32.lt a F32.one ≠ true) :
    a = F32.one := by
  obtain ⟨ha, h1, hkey⟩ := F32.le_iff.mp hle
  have hone : F32.key F32.one = 0x3F800000 := by decide
  have hkey' : F32.key a = 0x3F800000 := by
    have : ¬ F32.key a < F32.key F32.one := fun h => hlt (F32.lt_iff.mpr ⟨ha, h1, h⟩)
    omega
  unfold F32.key at hkey'
  split at hkey'
  · omega
  · next hs =>
    exact F32.eq_of_neg?_mag ((Bool.eq_false_iff.mpr hs).trans (by decide))
      ((Int.ofNat.inj hkey').trans (by decide))

@[simp] theorem powConfig_one_right (a : F32) : powConfig a F32.one = a := if_pos rfl

@[simp] theorem powConfig_zero_left (k : F32) : powConfig F32.zero k = F32.zero := by
  unfold powConfig
  split
  · rfl
  · exact if_pos (by decide)

@[simp] theorem powConfig_one_left (k : F32) : powConfig F32.one k = F32.one := by
  unfold powConfig
  split
  · rfl
  · rw [if_neg (by decide), if_pos rfl]

/-- R16 (c): POW keeps [0, 1]. -/
theorem powConfig_mem_unit {a k : F32} (h0 : F32.le F32.zero a = true) (h1 : F32.le a F32.one = true) :
    F32.le F32.zero (powConfig a k) = true ∧ F32.le (powConfig a k) F32.one = true := by
  have hzero : F32.le F32.zero F32.zero = true ∧ F32.le F32.zero F32.one = true := by decide
  unfold powConfig
  split
  · exact ⟨h0, h1⟩
  split
  · exact hzero
  split
  · exact ⟨hzero.2, by decide⟩
  next hne =>
  split
  · split
    · next hfree => simpa using hfree
    · exact hzero
  · next hlt => exact absurd (F32.eq_one_of_le_of_not_lt h1 hlt) hne

/-- What R16 leaves open is the free constant. -/
theorem powConfig_eq_freePow {a k : F32} (hk : k ≠ F32.one) (h0 : F32.lt F32.zero a = true) (h1 : a ≠ F32.one)
    (h : F32.lt F32.one a = true ∨
      (F32.le F32.zero (Config.freePow a k) = true ∧ F32.le (Config.freePow a k) F32.one = true)) :
    powConfig a k = Config.freePow a k := by
  have hz : ¬ F32.isZero a = true := by
    intro hz
    have hmag : F32.mag a = 0 := of_decide_eq_true hz
    have hkeya : F32.key a = 0 := by simp [F32.key, hmag]
    have hkey0 : F32.key F32.zero = 0 := by decide
    obtain ⟨-, -, hkey⟩ := F32.lt_iff.mp h0
    omega
  unfold powConfig
  rw [if_neg hk, if_neg hz, if_neg h1]
  rcases h with h | ⟨hlo, hhi⟩
  · refine if_neg fun hlt => ?_
    obtain ⟨-, -, hgt⟩ := F32.lt_iff.mp h
    obtain ⟨-, -, hlt⟩ := F32.lt_iff.mp hlt
    omega
  · simp [hlo, hhi]

/-! ## Rounding (R14) -/

/-- The rounded quotient is one of the two whole numbers around `n / d`, the nearer one; half way, the even one. -/
theorem roundHalfEven_cases (n d : Nat) :
    (roundHalfEven n d = n / d ∧ 2 * (n % d) ≤ d ∨ roundHalfEven n d = n / d + 1 ∧ d ≤ 2 * (n % d)) ∧
      (2 * (n % d) = d → roundHalfEven n d % 2 = 0) := by
  unfold roundHalfEven
  dsimp only
  split
  · omega
  · split <;> omega

/-- The distance of `v` from `n / d`, times `d`: the whole number in which RoundsToNearestEven measures nearness. -/
def scaledDist (v n d : Nat) : Nat := ((v * d : Int) - n).natAbs

theorem scaledDist_eq (v n d : Nat) : scaledDist v n d = (v * d - n) + (n - v * d) := by
  unfold scaledDist
  rw [← Nat.cast_mul]
  omega

theorem scaledDist_mul (v p n d : Nat) : scaledDist (v * p) n d = scaledDist v n (d * p) := by
  rw [scaledDist_eq, scaledDist_eq, show v * p * d = v * (d * p) by ring]

/-- No whole number is nearer to `n / d`, and where another is as near the rounded one is even. -/
theorem roundHalfEven_nearest {n d : Nat} (hd : 0 < d) (m : Nat) :
    scaledDist (roundHalfEven n d) n d ≤ scaledDist m n d ∧
      (scaledDist (roundHalfEven n d) n d = scaledDist m n d → m ≠ roundHalfEven n d → roundHalfEven n d % 2 = 0) := by
  obtain ⟨hr, htie⟩ := roundHalfEven_cases n d
  have hn : n / d * d + n % d = n := Nat.div_add_mod' n d
  have hlt : n % d < d := Nat.mod_lt n hd
  -- `m` is below `n / d`, at it, next above it, or beyond
  have hm : m * d + d ≤ n / d * d ∨ m = n / d ∧ m * d = n / d * d ∨ m = n / d + 1 ∧ m * d = n / d * d + d ∨
      n / d * d + 2 * d ≤ m * d := by
    rcases Nat.lt_trichotomy m (n / d) with h | rfl | h
    · exact .inl (by nlinarith)
    · exact .inr (.inl ⟨rfl, rfl⟩)
    · rcases Nat.eq_or_lt_of_le h with rfl | h
      · exact .inr (.inr (.inl ⟨rfl, Nat.succ_mul _ _⟩))
      · exact .inr (.inr (.inr (by nlinarith)))
  rw [scaledDist_eq, scaledDist_eq]
  rcases hr with ⟨hr, hhalf⟩ | ⟨hr, hhalf⟩
  · rw [hr] at htie ⊢
    omega
  · rw [hr] at htie ⊢
    rw [Nat.succ_mul]
    omega

/-- The exponent `F32.spacing` uses: the last place of 24 significant bits, never below one unit. -/
def F32.lastPlace (n d : Nat) : Nat := Nat.log2 (n / d) - 23

/-- The 24-bit significand of the rounded value; `2 ^ 24` when rounding carries over. -/
def F32.significand (n d : Nat) : Nat := roundHalfEven n (d * 2 ^ F32.lastPlace n d)

theorem F32.roundUnits_eq (n d : Nat) : F32.roundUnits n d = F32.significand n d * 2 ^ F32.lastPlace n d := rfl

/-- Where the last place is above one unit, the value has 24 significant bits. -/
theorem F32.le_quotient_of_lastPlace {n d : Nat} (h : F32.lastPlace n d ≠ 0) :
    2 ^ 23 ≤ n / (d * 2 ^ F32.lastPlace n d) := by
  have hlog : 23 + F32.lastPlace n d = Nat.log2 (n / d) := by unfold F32.lastPlace at h ⊢; omega
  have hq : n / d ≠ 0 := by
    intro h0
    simp [F32.lastPlace, h0] at h
  rw [← Nat.div_div_eq_div_mul, Nat.le_div_iff_mul_le (Nat.two_pow_pos _), ← Nat.pow_add, hlog]
  exact Nat.log2_self_le hq

theorem F32.quotient_lt (n d : Nat) : n / (d * 2 ^ F32.lastPlace n d) < 2 ^ 24 := by
  rw [← Nat.div_div_eq_div_mul, Nat.div_lt_iff_lt_mul (Nat.two_pow_pos _), ← Nat.pow_add]
  exact Nat.lt_of_lt_of_le Nat.lt_log2_self (Nat.pow_le_pow_right (by decide) (by unfold F32.lastPlace; omega))

/-- The significand has at most 24 bits (or is the carry `2 ^ 24`), and all 24 where the last place is above one unit. -/
theorem F32.significand_bounds (n d : Nat) :
    F32.significand n d ≤ 2 ^ 24 ∧ (F32.lastPlace n d = 0 ∨ 2 ^ 23 ≤ F32.significand n d) := by
  have hlt := F32.quotient_lt n d
  have hle := F32.le_quotient_of_lastPlace (n := n) (d := d)
  obtain ⟨hr, -⟩ := roundHalfEven_cases n (d * 2 ^ F32.lastPlace n d)
  unfold F32.significand
  omega

theorem log2_mul_two_pow {r k : Nat} (hr : 2 ^ 23 ≤ r) (hlt : r < 2 ^ 24) : Nat.log2 (r * 2 ^ k) = 23 + k := by
  rw [Nat.log2_eq_iff (by positivity)]
  constructor
  · rw [Nat.pow_add]
    exact Nat.mul_le_mul_right _ hr
  · rw [Nat.add_right_comm, Nat.pow_add]
    exact Nat.mul_lt_mul_of_pos_right hlt (Nat.two_pow_pos k)

/-- Bits 30:0 of a significand and an exponent: the significand's top bit adds to the exponent field, and so does the
carry of `2 ^ 24`. -/
theorem F32.magOfUnits_mul_two_pow {r k : Nat} (hr : r ≤ 2 ^ 24) (hk : k = 0 ∨ 2 ^ 23 ≤ r) :
    F32.magOfUnits (r * 2 ^ k) = min (k * 2 ^ 23 + r) 0x7F800000 := by
  unfold F32.magOfUnits
  dsimp only
  rcases Nat.lt_or_eq_of_le hr with hlt | rfl
  · by_cases hsub : r * 2 ^ k < 2 ^ 24
    · have hk0 : k = 0 := by
        rcases hk with hk | hk
        · exact hk
        · by_contra hne
          have : 2 ^ 1 ≤ 2 ^ k := Nat.pow_le_pow_right (by decide) (by omega)
          nlinarith
      subst hk0
      rw [if_pos hsub]
      omega
    · have hr23 : 2 ^ 23 ≤ r := by
        rcases hk with rfl | hk
        · omega
        · exact hk
      rw [if_neg hsub, log2_mul_two_pow hr23 hlt, Nat.add_sub_cancel_left, Nat.mul_div_cancel _ (Nat.two_pow_pos k)]
  · have hpow : 2 ^ 24 * 2 ^ k = 2 ^ (24 + k) := (Nat.pow_add ..).symm
    have hnot : ¬ 2 ^ (24 + k) < 2 ^ 24 := Nat.not_lt.mpr (Nat.pow_le_pow_right (by decide) (by omega))
    have hdiv : 2 ^ (24 + k) / 2 ^ (24 + k - 23) = 2 ^ 23 := by
      rw [Nat.pow_div (by omega) (by decide)]
      congr 1
      omega
    rw [hpow, if_neg hnot, Nat.log2_two_pow, hdiv]
    omega

/-- The units of a word whose bits 30:0 come from a significand and an exponent. -/
theorem F32.units_of_mag {x : F32} {r k : Nat} (hr : r ≤ 2 ^ 24) (hk : k = 0 ∨ 2 ^ 23 ≤ r)
    (hx : F32.mag x = k * 2 ^ 23 + r) : F32.units x = r * 2 ^ k := by
  rw [F32.units_eq, hx]
  rcases Nat.lt_or_eq_of_le hr with hlt | rfl
  · by_cases hsub : r < 2 ^ 23
    · have hk0 : k = 0 := by omega
      subst hk0
      rw [if_pos (by omega)]
      omega
    · have hexp : (k * 2 ^ 23 + r) / 2 ^ 23 - 1 = k := by omega
      have hsig : 2 ^ 23 + (k * 2 ^ 23 + r) % 2 ^ 23 = r := by omega
      rw [if_neg (by omega), hexp, hsig]
  · have hexp : (k * 2 ^ 23 + 2 ^ 24) / 2 ^ 23 - 1 = k + 1 := by omega
    have hsig : 2 ^ 23 + (k * 2 ^ 23 + 2 ^ 24) % 2 ^ 23 = 2 ^ 23 := by omega
    rw [if_neg (by omega), hexp, hsig, Nat.pow_succ]
    omega

/-- A binary32 magnitude is a multiple of `2 ^ k` units, or has not reached 24 significant bits of them. -/
theorem F32.units_dvd_or_lt (y : F32) (k : Nat) : 2 ^ k ∣ F32.units y ∨ k ≠ 0 ∧ F32.units y < 2 ^ 23 * 2 ^ k := by
  rcases Nat.eq_zero_or_pos k with rfl | hk
  · exact .inl (one_dvd _)
  rw [F32.units_eq]
  generalize F32.mag y = m
  split
  · have := Nat.two_pow_pos k
    omega
  · rcases Nat.lt_or_ge (m / 2 ^ 23 - 1) k with h | h
    · refine .inr ⟨by omega, ?_⟩
      calc (2 ^ 23 + m % 2 ^ 23) * 2 ^ (m / 2 ^ 23 - 1) < 2 ^ 24 * 2 ^ (m / 2 ^ 23 - 1) :=
            Nat.mul_lt_mul_of_pos_right (by omega) (Nat.two_pow_pos _)
        _ = 2 ^ 23 * 2 ^ (m / 2 ^ 23 - 1 + 1) := by ring
        _ ≤ 2 ^ 23 * 2 ^ k := Nat.mul_le_mul_left _ (Nat.pow_le_pow_right (by decide) h)
    · exact .inl (Dvd.dvd.mul_left (Nat.pow_dvd_pow 2 h) _)

/-- A finite rounded word, bit by bit and in units. -/
theorem F32.round_of_finite {s : Bool} {n d : Nat} (h : F32.isInf (F32.round s n d) = false) :
    F32.mag (F32.round s n d) = F32.lastPlace n d * 2 ^ 23 + F32.significand n d ∧
      F32.units (F32.round s n d) = F32.significand n d * 2 ^ F32.lastPlace n d := by
  obtain ⟨hr, hk⟩ := F32.significand_bounds n d
  have hmag : F32.mag (F32.round s n d) = F32.lastPlace n d * 2 ^ 23 + F32.significand n d := by
    have hmin := F32.mag_round s n d
    rw [F32.roundUnits_eq, F32.magOfUnits_mul_two_pow hr hk] at hmin
    have hne : F32.mag (F32.round s n d) ≠ 0x7F800000 := of_decide_eq_false h
    omega
  exact ⟨hmag, F32.units_of_mag hr hk hmag⟩

/-- No binary32 magnitude is nearer to `n / d` than the significand at its last place, and where another is as near
the significand is even. -/
theorem F32.significand_nearest {n d : Nat} (hd : 0 < d) (y : F32) :
    scaledDist (F32.significand n d * 2 ^ F32.lastPlace n d) n d ≤ scaledDist (F32.units y) n d ∧
      (scaledDist (F32.significand n d * 2 ^ F32.lastPlace n d) n d = scaledDist (F32.units y) n d →
        F32.units y ≠ F32.significand n d * 2 ^ F32.lastPlace n d → F32.significand n d % 2 = 0) := by
  have hpos := Nat.mul_pos hd (Nat.two_pow_pos (F32.lastPlace n d))
  rw [scaledDist_mul]
  rcases F32.units_dvd_or_lt y (F32.lastPlace n d) with ⟨m, hm⟩ | ⟨hk, hlt⟩
  · -- `y` is a multiple of the last place: the rounding to a whole number of them decides
    obtain ⟨hnear, htie⟩ := roundHalfEven_nearest (n := n) hpos m
    rw [hm, Nat.mul_comm _ m, scaledDist_mul]
    exact ⟨hnear, fun heq hne => htie heq fun h => hne (congrArg (· * _) h)⟩
  · -- `y` has a finer last place: it lies below `2 ^ 23` last places, which are no more than `n / d`
    obtain ⟨hnear, -⟩ := roundHalfEven_nearest (n := n) hpos (2 ^ 23)
    have hle := (Nat.le_div_iff_mul_le hpos).mp (F32.le_quotient_of_lastPlace hk)
    have hy : F32.units y * d < 2 ^ 23 * (d * 2 ^ F32.lastPlace n d) :=
      calc F32.units y * d < 2 ^ 23 * 2 ^ F32.lastPlace n d * d := Nat.mul_lt_mul_of_pos_right hlt hd
        _ = 2 ^ 23 * (d * 2 ^ F32.lastPlace n d) := by ring
    have hfar : scaledDist (F32.significand n d) n (d * 2 ^ F32.lastPlace n d) < scaledDist (F32.units y) n d := by
      refine Nat.lt_of_le_of_lt hnear ?_
      rw [scaledDist_eq, scaledDist_eq]
      omega
    exact ⟨hfar.le, fun heq => absurd heq hfar.ne⟩

/-! ## The operations (R14, R15) -/

@[simp] theorem F32.neg?_neg (x : F32) : F32.neg? (F32.neg x) = !F32.neg? x := by
  simp [F32.neg?, F32.neg]

@[simp] theorem F32.mag_neg (x : F32) : F32.mag (F32.neg x) = F32.mag x := by
  rw [F32.mag, F32.neg, BitVec.toNat_xor, Nat.xor_mod_two_pow]
  simp [F32.mag]

@[simp] theorem F32.units_neg (x : F32) : F32.units (F32.neg x) = F32.units x := by
  simp only [F32.units_eq, F32.mag_neg]

@[simp] theorem F32.value_neg (x : F32) : F32.value (F32.neg x) = -F32.value x := by
  cases h : F32.neg? x <;> simp [F32.value, h]

theorem F32.add_of_finite {x y : F32} (hx : F32.mag x < 0x7F800000) (hy : F32.mag y < 0x7F800000)
    (h : F32.value x + F32.value y ≠ 0) :
    F32.add x y = F32.round (decide (F32.value x + F32.value y < 0)) (F32.value x + F32.value y).natAbs 1 := by
  simp [F32.add, F32.addFinite, F32.isNaN_of_finite, F32.isInf_of_finite, hx, hy, h]

theorem F32.sub_of_finite {x y : F32} (hx : F32.mag x < 0x7F800000) (hy : F32.mag y < 0x7F800000)
    (h : F32.value x - F32.value y ≠ 0) :
    F32.sub x y = F32.round (decide (F32.value x - F32.value y < 0)) (F32.value x - F32.value y).natAbs 1 := by
  have hneg : F32.value x + F32.value (F32.neg y) = F32.value x - F32.value y := by rw [F32.value_neg, Int.sub_eq_add_neg]
  rw [← hneg] at h ⊢
  exact F32.add_of_finite hx (by rwa [F32.mag_neg]) h

theorem F32.mul_of_finite {x y : F32} (hx : F32.mag x < 0x7F800000) (hy : F32.mag y < 0x7F800000) :
    F32.mul x y = F32.round (F32.neg? x != F32.neg? y) (F32.units x * F32.units y) (2 ^ 149) := by
  simp [F32.mul, F32.isNaN_of_finite, F32.isInf_of_finite, hx, hy]

theorem F32.div_of_finite {x y : F32} (hx : F32.mag x < 0x7F800000) (hy : F32.mag y < 0x7F800000)
    (h : F32.units y ≠ 0) :
    F32.div x y = F32.round (F32.neg? x != F32.neg? y) (F32.units x * 2 ^ 149) (F32.units y) := by
  have hz : F32.isZero y = false := decide_eq_false (mt F32.units_eq_zero.mpr h)
  simp [F32.div, F32.isNaN_of_finite, F32.isInf_of_finite, hx, hy, hz]

/-- float(n) is exact where n has 24 bits, and at 2^24. -/
theorem F32.ofNat_exact {n : Nat} (hn : n ≤ 2 ^ 24) :
    F32.units (F32.ofNat n) = n * 2 ^ 149 ∧ F32.mag (F32.ofNat n) < 0x7F800000 := by
  rcases Nat.lt_or_eq_of_le hn with hlt | rfl
  · exact F32.round_exact false Nat.one_pos hlt (by decide) (Nat.one_mul _).symm
  · rw [show 2 ^ 24 * 2 ^ 149 = 1 * 2 ^ (24 + 149) by norm_num]
    exact F32.round_exact false Nat.one_pos (by norm_num) (by norm_num) (by norm_num)

/-! ## The statements -/

namespace Machine

/-- Settles O9: a legal configuration keeps every constraint of R10, so one that breaks a constraint is not legal. -/
theorem badConfigRefused : Obligations.BadConfigRefused := by
  intro s hbroken
  refine step_of_not_wf (Bool.eq_false_iff.mpr fun hwf => ?_)
  obtain ⟨hwlen, hseed, hrise, hmult, hlo, hhi⟩ := Config.wf_constraints hwf
  rcases hbroken with h | h | ⟨i, hi, h⟩ | h | h
  · exact h hwlen
  · exact hseed h
  · exact Bool.false_ne_true (h.symm.trans (hrise i hi))
  · exact h hmult
  · exact h ⟨hlo, hhi⟩

/-- Settles O11, by the three ways a step gives a next state. -/
theorem configNeverChanges : Obligations.ConfigNeverChanges := by
  intro s t h
  obtain ⟨-, ⟨-, rfl⟩ | ⟨x, rest, -, hx⟩ | ⟨rest, -, rfl⟩⟩ := step_cases h
  · rfl
  · exact (exec_effect hx).cfg_eq
  · rfl

/-- Settles O51, property by property of R16, and the free constant where R16 leaves the value open. -/
theorem powProperties : Obligations.PowProperties := fun a k h0 _ =>
  ⟨powConfig_zero_left k, powConfig_one_left k, powConfig_mem_unit h0, powConfig_one_right a, powConfig_eq_freePow⟩

/-- Settles O52: the rounded word is the significand at its last place, and its last bit is the significand's. -/
theorem roundsToNearestEven : Obligations.RoundsToNearestEven := by
  intro s n d hd hfin
  refine ⟨F32.neg?_round s n d, F32.isNaN_round s n d, fun y _ => ?_⟩
  obtain ⟨hmag, hunits⟩ := F32.round_of_finite hfin
  obtain ⟨hnear, htie⟩ := F32.significand_nearest (n := n) hd y
  rw [hunits, hmag]
  refine ⟨hnear, fun heq hne => ?_⟩
  have := htie heq hne
  omega

/-- Settles O53, operation by operation; the cut-off fraction of trunc is the remainder of a division. -/
theorem operationsRoundOnce : Obligations.OperationsRoundOnce := by
  refine ⟨fun x y hx hy => ⟨F32.add_of_finite hx hy, F32.sub_of_finite hx hy, F32.mul_of_finite hx hy,
    F32.div_of_finite hx hy, F32.lt_iff_value hx hy, F32.le_iff_value hx hy⟩, fun n hn => ?_, fun x => ?_⟩
  · obtain ⟨hunits, hmag⟩ := F32.ofNat_exact hn
    exact ⟨hmag, F32.neg?_round _ _ _, hunits⟩
  · exact ⟨Nat.div_mul_le_self _ _, Nat.lt_mul_of_div_lt (Nat.lt_succ_self _) (by positivity)⟩

end Machine

end Sys2Proof

/-! PROOFS. The statements of 10_state.md: the registers and their map (R43, R44, R60), BUSERR (R64), the hidden voice
state (R69 to R73), and the block's invariant. -/

namespace Sys2Proof

/-! ## Wavelengths (R226) -/

/-- No NaN and no sign bit: what a frequency is, and all that R226's bound on a wavelength needs of it. -/
def F32.IsUnsigned (x : F32) : Prop := F32.isNaN x = false ∧ F32.neg? x = false

theorem F32.isUnsigned_round (n d : Nat) : F32.IsUnsigned (F32.round false n d) :=
  ⟨F32.isNaN_round _ _ _, F32.neg?_round _ _ _⟩

theorem F32.isUnsigned_ofNat (n : Nat) : F32.IsUnsigned (F32.ofNat n) := F32.isUnsigned_round _ _

theorem F32.isUnsigned_div {x y : F32} (hx : F32.mag x < 0x7F800000) (hx0 : F32.mag x ≠ 0) (hxs : F32.neg? x = false)
    (hy : F32.IsUnsigned y) : F32.IsUnsigned (F32.div x y) := by
  obtain ⟨hnan, hneg⟩ := hy
  have hxz : F32.isZero x = false := decide_eq_false hx0
  unfold F32.div
  simp only [F32.isNaN_of_finite hx, F32.isInf_of_finite hx, hxz, hxs, hnan, hneg, Bool.or_self, Bool.false_eq_true,
    if_false, bne_self_eq_false]
  split
  · exact ⟨by decide, by decide⟩
  split
  · exact ⟨by decide, by decide⟩
  · exact F32.isUnsigned_round _ _

/-- A frequency that passes R225's check is finite and has no sign bit. -/
theorem validFreq_finite {f : F32} (h : validFreq f = true) : F32.mag f < 0x7F800000 ∧ F32.neg? f = false := by
  simp only [validFreq, Bool.and_eq_true, decide_eq_true_eq] at h
  obtain ⟨-, hle⟩ := h
  have hneg : F32.neg? f = false := by
    simp only [F32.neg?, BitVec.getLsbD, Nat.testBit_eq_decide_div_mod_eq, decide_eq_false_iff_not]
    omega
  exact ⟨by unfold F32.mag; omega, hneg⟩

theorem F32.isUnsigned_of_validFreq {f : F32} (h : validFreq f = true) : F32.IsUnsigned f := by
  obtain ⟨hmag, hneg⟩ := validFreq_finite h
  exact ⟨F32.isNaN_of_finite hmag, hneg⟩

theorem F32.isUnsigned_mul {x y : F32} (hx : validFreq x = true) (hy : validFreq y = true) :
    F32.IsUnsigned (F32.mul x y) := by
  obtain ⟨hxmag, hxneg⟩ := validFreq_finite hx
  obtain ⟨hymag, hyneg⟩ := validFreq_finite hy
  rw [F32.mul_of_finite hxmag hymag, hxneg, hyneg]
  exact F32.isUnsigned_round _ _

theorem F32.trunc_lt {q : F32} (h : F32.mag q < 0x4F000000) : F32.trunc q < 2 ^ 31 := by
  have hunits : F32.units q < F32.units 0x4F000000#32 := F32.units_lt_units (h.trans_eq (by decide))
  exact Nat.div_lt_of_lt_mul (hunits.trans_eq (by decide))

theorem Config.wf_sampleRate {c : Config} (h : c.wf = true) : 1 ≤ c.sampleRate ∧ c.sampleRate ≤ 2 ^ 24 := by
  simp only [Config.wf, Bool.and_eq_true, decide_eq_true_eq] at h
  omega

/-- A wavelength lies below 2^31: one the quotient reaches beyond it saturates (R226). -/
theorem wavelength_lt {c : Config} {x : F32} (hc : c.wf = true) (hx : F32.IsUnsigned x) :
    wavelength c x < 2 ^ 31 := by
  obtain ⟨hpos, hle⟩ := Config.wf_sampleRate hc
  obtain ⟨hunits, hmag⟩ := F32.ofNat_exact hle
  have hne : F32.mag (F32.ofNat c.sampleRate) ≠ 0 := by
    rw [Ne, ← F32.units_eq_zero, hunits]
    positivity
  obtain ⟨hnan, hneg⟩ := F32.isUnsigned_div hmag hne (F32.neg?_round _ _ _) hx
  unfold wavelength
  dsimp only
  split
  · decide
  · next hlt => exact F32.trunc_lt (Machine.trunc_lt_of_not_le _ hnan hneg (by simpa using hlt))

/-- An entry of a table of valid frequencies, or 1.0 beyond its end, is a valid frequency. -/
theorem validFreq_getD {n : Nat} {xs : Vector F32 n} (h : xs.toList.all validFreq = true) (i : Nat) :
    validFreq (xs.getD i F32.one) = true := by
  rw [List.all_eq_true] at h
  unfold Vector.getD Array.getD
  split
  · exact h _ (by simp)
  · decide

theorem Config.wf_tables {c : Config} (h : c.wf = true) :
    c.noiseFreqs.toList.all validFreq = true ∧ c.mult.toList.all validFreq = true := by
  simp only [Config.wf, Bool.and_eq_true, and_assoc] at h
  obtain ⟨-, -, -, -, -, -, -, -, -, -, -, hnoise, -, -, hmult, -⟩ := h
  exact ⟨hnoise, hmult⟩

/-- LFSR_SEED is a 15-bit word that is not 0 (R8, R10). -/
theorem Config.wf_lfsrSeed {c : Config} (h : c.wf = true) : c.lfsrSeed ≠ 0 ∧ c.lfsrSeed.getLsbD 15 = false := by
  obtain ⟨-, hne, -⟩ := Config.wf_constraints h
  have hle : c.lfsrSeed.toNat ≤ 0x7FFF := by
    simp only [Config.wf, Bool.and_eq_true, decide_eq_true_eq] at h
    omega
  refine ⟨hne, ?_⟩
  rw [BitVec.getLsbD, Nat.testBit_lt_two_pow (by omega)]

namespace Machine

theorem wavelengthNat_lt {c : Config} (hc : c.wf = true) (r : Nat) : wavelengthNat c r < 2 ^ 31 :=
  wavelength_lt hc (F32.isUnsigned_ofNat r)

theorem detunedWlen_lt {c : Config} {f : F32} (hc : c.wf = true) (hf : validFreq f = true) (detune : Int) :
    detunedWlen c f detune < 2 ^ 31 :=
  wavelength_lt hc (F32.isUnsigned_mul hf (validFreq_getD (Config.wf_tables hc).2 _))

theorem noiseWlen_lt {c : Config} {f : F32} (hc : c.wf = true) (hf : validFreq f = true) (p : NoiseParams) :
    noiseWlen c p f < 2 ^ 31 := by
  unfold noiseWlen
  split
  · exact wavelength_lt hc (F32.isUnsigned_of_validFreq hf)
  · exact wavelength_lt hc (F32.isUnsigned_of_validFreq (validFreq_getD (Config.wf_tables hc).1 _))

/-! ## The LFSR (R334, R335) -/

/-- Below bit 14 the LFSR shifts right by one (R334). -/
theorem lfsrStep_getLsbD_of_lt (r : BitVec 16) (mode : Int) {i : Nat} (hi : i < 14) :
    (lfsrStep r mode).getLsbD i = r.getLsbD (i + 1) := by
  have hfb : (0x4000#16).getLsbD i = false := by
    interval_cases i <;> rfl
  unfold lfsrStep
  dsimp only
  split <;> split <;> simp [hfb, Nat.add_comm]

/-- Bit 14 takes the feedback: bit 0 against the tap (R334). -/
theorem lfsrStep_getLsbD_14 {r : BitVec 16} (mode : Int) (h15 : r.getLsbD 15 = false) :
    (lfsrStep r mode).getLsbD 14 = (r.getLsbD 0 ^^ r.getLsbD (if mode = 1 then 6 else 1)) := by
  have hfb (b : Bool) : (if b = true then 0x4000#16 else 0#16).getLsbD 14 = b := by cases b <;> rfl
  have htap : (if mode = 1 then r.getLsbD 6 else r.getLsbD 1) = r.getLsbD (if mode = 1 then 6 else 1) :=
    (apply_ite r.getLsbD _ _ _).symm
  rw [lfsrStep, BitVec.getLsbD_or, BitVec.getLsbD_ushiftRight, hfb, htap, h15, Bool.false_or, Bool.bne_eq_xor]

/-- The LFSR never reaches 0 from a 15-bit state that is not 0: the step that loses its last 1 feeds one in (R335). -/
theorem lfsrStep_ne_zero {r : BitVec 16} (mode : Int) (h0 : r ≠ 0) (h15 : r.getLsbD 15 = false) :
    lfsrStep r mode ≠ 0 := by
  intro h
  have hupper : ∀ i, 1 ≤ i → r.getLsbD i = false := by
    intro i hi
    rcases Nat.lt_trichotomy i 15 with hlt | rfl | hgt
    · have hbit := lfsrStep_getLsbD_of_lt r mode (i := i - 1) (by omega)
      rw [h, Nat.sub_add_cancel hi] at hbit
      simpa using hbit.symm
    · exact h15
    · exact BitVec.getLsbD_of_ge _ _ hgt
  have htap : r.getLsbD (if mode = 1 then 6 else 1) = false := hupper _ (by split <;> decide)
  have hlow := lfsrStep_getLsbD_14 mode h15
  rw [h, htap] at hlow
  refine h0 (BitVec.eq_of_getLsbD_eq fun i _ => ?_)
  rcases Nat.eq_zero_or_pos i with rfl | hi
  · simpa using hlow.symm
  · simpa using hupper i hi

/-! ## What a frame keeps of a voice (R70, R71) -/

/-- The bound on a tone wavelength and a tone phase: the greatest that pitch or a sweep gives (R70). -/
def toneBound (maxWlen : Nat) : Nat := max (2 ^ 31 - 1) (maxWlen + maxWlen / 2)

/-- R70 and R71 of one tone channel. -/
structure ToneState.Ok (maxWlen : Nat) (t : ToneState) : Prop where
  envVal : t.env.val ≤ 15
  wlen : t.wlen ≤ toneBound maxWlen
  phase : t.phase < toneBound maxWlen
  sweepCtr : t.sweepCtr < 2 ^ 31
  envCtr : t.env.ctr < 2 ^ 31

/-- R70 and R71 of the noise channel. -/
structure NoiseState.Ok (n : NoiseState) : Prop where
  envVal : n.env.val ≤ 15
  wlen : n.wlen < 2 ^ 31
  phase : n.phase < 2 ^ 31
  envCtr : n.env.ctr < 2 ^ 31
  lfsr : n.lfsr ≠ 0
  lfsr15 : n.lfsr.getLsbD 15 = false

/-- The invariant of a voice, channel by channel. -/
theorem VoiceState.inv_and_bounded_iff {c : Config} {h : VoiceState} :
    h.inv ∧ h.bounded c ↔
      h.maxWlen = c.maxWlen ∧ h.ch1.Ok h.maxWlen ∧ h.ch2.Ok h.maxWlen ∧ h.wlen3 < 2 ^ 31 ∧ h.noise.Ok := by
  constructor
  · rintro ⟨⟨hv1, hv2, hv4, hl, hl15⟩, hm, hw1, hw2, hp1, hp2, hw3, hw4, hs1, hs2, he1, he2, he4, hp4⟩
    exact ⟨hm, ⟨hv1, hw1, hp1, hs1, he1⟩, ⟨hv2, hw2, hp2, hs2, he2⟩, hw3, ⟨hv4, hw4, hp4, he4, hl, hl15⟩⟩
  · rintro ⟨hm, ⟨hv1, hw1, hp1, hs1, he1⟩, ⟨hv2, hw2, hp2, hs2, he2⟩, hw3, ⟨hv4, hw4, hp4, he4, hl, hl15⟩⟩
    exact ⟨⟨hv1, hv2, hv4, hl, hl15⟩, hm, hw1, hw2, hp1, hp2, hw3, hw4, hs1, hs2, he1, he2, he4, hp4⟩

/-- A sweep event gives no wavelength beyond one and a half times the greatest it acts on (R268). -/
theorem sweptWlen_le (ch : ToneCh) {amt : Int} {w maxWlen : Nat} (h0 : amt ≠ 0) (hw : w ≤ maxWlen) :
    sweptWlen ch amt w ≤ maxWlen + maxWlen / 2 := by
  unfold sweptWlen
  dsimp only
  split
  · rw [Nat.sub_sub]
    exact (Nat.sub_le _ _).trans (by omega)
  · have hhalf : w / 2 ^ amt.natAbs ≤ w / 2 :=
      Nat.div_le_div_left (Nat.le_self_pow (by omega) 2) (by decide)
    omega

/-- A sweep step keeps the bounds: it changes the wavelength only at an event, and only one in range. -/
theorem sweepStep_ok {c : Config} {maxWlen : Nat} (ch : ToneCh) (p : ToneParams) {d : ToneDerived} {t : ToneState}
    (hd : d.swRate < 2 ^ 31) (ht : t.Ok maxWlen) : (sweepStep c maxWlen ch p d t).Ok maxWlen := by
  unfold sweepStep
  split
  · refine { ht with wlen := ?_, sweepCtr := Nat.two_pow_pos 31 }
    dsimp only
    split
    · next hev =>
      obtain ⟨-, hrange, hamt⟩ := hev
      simp only [inRange, Bool.and_eq_true, decide_eq_true_eq] at hrange
      exact (sweptWlen_le ch hamt hrange.2).trans (le_max_right _ _)
    · exact ht.wlen
  · exact { ht with sweepCtr := by dsimp only; omega }

theorem toneBound_pos (maxWlen : Nat) : 0 < toneBound maxWlen := by unfold toneBound; omega

theorem phaseNext_lt {w2 phase b : Nat} (hb : 0 < b) (hw : w2 ≤ b) : phaseNext w2 phase < b := by
  unfold phaseNext
  split
  · next hpos => exact (Nat.mod_lt _ hpos).trans_le hw
  · exact hb

theorem toneNext_ok {c : Config} {maxWlen : Nat} (ch : ToneCh) (p : ToneParams) {d : ToneDerived} {t : ToneState}
    (hsw : d.swRate < 2 ^ 31) (henv : d.envLen < 2 ^ 31) (ht : t.Ok maxWlen) :
    (toneNext c maxWlen ch p d t).Ok maxWlen := by
  have hs := sweepStep_ok (c := c) ch p hsw ht
  exact { envVal := envelopeStep_val_le _ _ _ hs.envVal
          wlen := hs.wlen
          phase := phaseNext_lt (toneBound_pos _) hs.wlen
          sweepCtr := hs.sweepCtr
          envCtr := envelopeStep_ctr_lt _ _ _ henv }

theorem noiseNext_ok (p : NoiseParams) {envLen : Nat} {n : NoiseState} (henv : envLen < 2 ^ 31) (hn : n.Ok) :
    (noiseNext p envLen n).Ok := by
  have hwlen := hn.wlen
  have hval := envelopeStep_val_le p.envLoop envLen _ hn.envVal
  have hctr := envelopeStep_ctr_lt p.envLoop envLen n.env henv
  by_cases hclock : n.wlen ≤ n.phase + 1
  · simp only [noiseNext, if_pos hclock]
    exact ⟨hval, hwlen, Nat.two_pow_pos 31, hctr, lfsrStep_ne_zero _ hn.lfsr hn.lfsr15, lfsrStep_bit15 _ _⟩
  · simp only [noiseNext, if_neg hclock]
    exact ⟨hval, hwlen, by dsimp only; omega, hctr, hn.lfsr, hn.lfsr15⟩

end Machine
end Sys2Proof

namespace Sys2Proof

/-! ## The decoders, target by target (30_encoding.md R145, R146) -/

/-- Where a target lies: the address, and the direction, of a transaction the bus decoder sends to it. -/
def Target.At (c : Config) (dir : Dir) (a : Word) : Target → Prop
  | .buserr => a.toNat % 4 ≠ 0 ∨ registerAddr c a.toNat = false ∧ (dir = .r → bufferAddr c a.toNat = false)
  | .param p => a = p.addr
  | .razwi => reservedAddr c a.toNat = true
  | .gstatus => a = 0x000000F0#32
  | .ginfo => a = 0x000000F4#32
  | .cmd v => v.present c = true ∧ a = voiceRegAddr v 0x0
  | .status v => v.present c = true ∧ a = voiceRegAddr v 0x4
  | .freq v => v.present c = true ∧ a = voiceRegAddr v 0x8
  | .out v i s => dir = .r ∧ v.present c = true ∧ i.toNat < c.blockFrames ∧ a = BitVec.ofNat 32 (outAddr v i.toNat s)

/-- An aligned offset below 0xF0 that no register has is reserved (10_state.md R43, 40_host_bus.md R183). -/
theorem reserved_of_ofOffset_none {n : Nat} (hlt : n < 0xF0) (h4 : n % 4 = 0) (h : Param.ofOffset? n = none) :
    (0x28 ≤ n ∧ n ≤ 0x3C) ∨ (0x68 ≤ n ∧ n ≤ 0x7C) ∨ (0x8C ≤ n ∧ n ≤ 0xBC) ∨ (0xE8 ≤ n ∧ n ≤ 0xEC) := by
  have hwords : ∀ k : Fin 60, Param.ofOffset? (4 * k.val) = none →
      (0x28 ≤ 4 * k.val ∧ 4 * k.val ≤ 0x3C) ∨ (0x68 ≤ 4 * k.val ∧ 4 * k.val ≤ 0x7C) ∨
        (0x8C ≤ 4 * k.val ∧ 4 * k.val ≤ 0xBC) ∨ (0xE8 ≤ 4 * k.val ∧ 4 * k.val ≤ 0xEC) := by decide
  obtain ⟨k, rfl⟩ := Nat.dvd_of_mod_eq_zero h4
  exact hwords ⟨k, by omega⟩ h

theorem Param.eq_addr {a : Word} {p : Param} (h : a.toNat = p.offset) : a = p.addr :=
  BitVec.eq_of_toNat_eq (h.trans p.addr_toNat.symm)

/-- The registers of a voice block (10_state.md R66). -/
theorem voiceTarget_at {c : Config} {dir : Dir} {a : Word} {v : VoiceId} {o : Nat} (hv : v.val < c.numVoices)
    (h4 : o % 4 = 0) (ho : o < 16) (ha : a.toNat = 0x100 + 0x10 * v.val + o) : (voiceTarget v o).At c dir a := by
  have hp : v.present c = true := decide_eq_true hv
  have haddr : a = voiceRegAddr v o := BitVec.eq_of_toNat_eq (ha.trans (voiceRegAddr_toNat v o ho).symm)
  unfold voiceTarget
  split
  · next h => exact ⟨hp, h ▸ haddr⟩
  split
  · next h => exact ⟨hp, h ▸ haddr⟩
  split
  · next h => exact ⟨hp, h ▸ haddr⟩
  · have h12 : o = 12 := by omega
    simp only [Target.At, reservedAddr, Bool.and_eq_true, Bool.or_eq_true, decide_eq_true_eq, beq_iff_eq]
    omega

/-- A sample word's address, from its parts (20_memory.md R106). -/
theorem eq_outAddr {a : Word} (h4 : a.toNat % 4 = 0) (hlo : 0x10000 ≤ a.toNat) (hhi : a.toNat < 0x110000) :
    a = BitVec.ofNat 32 (outAddr (Fin.ofNat 16 ((a.extractLsb' 16 16).toNat - 1)) (a.extractLsb' 3 13).toNat
      (Side.ofBit (a.getLsbD 2))) := by
  have hside : (Side.ofBit (a.getLsbD 2)).num = a.toNat / 4 % 2 := by
    rw [BitVec.getLsbD, Nat.testBit_eq_decide_div_mod_eq, show 2 ^ 2 = 4 from rfl]
    rcases Nat.mod_two_eq_zero_or_one (a.toNat / 4) with h | h <;> rw [h] <;> rfl
  apply BitVec.eq_of_toNat_eq
  simp only [outAddr, hside, BitVec.toNat_ofNat, BitVec.extractLsb'_toNat, Nat.shiftRight_eq_div_pow, Fin.val_ofNat]
  omega

/-- The bus decoder sends every transaction where its address lies. -/
theorem decodeBus_at {c : Config} (hc : c.wf = true) (dir : Dir) (a : Word) : (decodeBus c dir a).At c dir a := by
  obtain ⟨hvoices, hblock, -⟩ := Config.wf_bounds hc
  have hbits : ((a.extractLsb' 4 4).toFin : VoiceId).val = a.toNat / 16 % 16 ∧
      (a.extractLsb' 0 4).toNat = a.toNat % 16 ∧ (a.extractLsb' 16 16).toNat = a.toNat / 0x10000 % 0x10000 ∧
      (a.extractLsb' 0 16).toNat = a.toNat % 0x10000 ∧ (a.extractLsb' 3 13).toNat = a.toNat / 8 % 0x2000 := by
    simp [BitVec.extractLsb'_toNat, Nat.shiftRight_eq_div_pow]
  obtain ⟨hvoice, hoff, hhi, hlow, hframe⟩ := hbits
  have hlt := a.isLt
  unfold decodeBus
  dsimp only
  split
  · next h4 => exact .inl h4
  next h4 =>
  rw [ne_eq, not_not] at h4
  split
  · next hn =>
    split
    · next p hp => exact Param.eq_addr (Param.offset_of_ofOffset hp).symm
    · next hp =>
      have := reserved_of_ofOffset_none hn h4 hp
      simp only [Target.At, reservedAddr, Bool.and_eq_true, Bool.or_eq_true, decide_eq_true_eq, beq_iff_eq]
      omega
  split
  · next hn => exact BitVec.eq_of_toNat_eq hn
  split
  · next hn => exact BitVec.eq_of_toNat_eq hn
  split
  · simp only [Target.At, reservedAddr, Bool.and_eq_true, Bool.or_eq_true, decide_eq_true_eq, beq_iff_eq]
    omega
  split
  · split
    · next hv =>
      refine .inr ⟨?_, fun _ => ?_⟩
      · simp only [registerAddr, Bool.or_eq_false_iff, Bool.and_eq_false_iff, decide_eq_false_iff_not]
        omega
      · simp only [bufferAddr, Bool.and_eq_false_iff, decide_eq_false_iff_not]
        omega
    · next hv => exact voiceTarget_at (by omega) (by omega) (by omega) (by omega)
  have hreg : registerAddr c a.toNat = false := by
    simp only [registerAddr, Bool.or_eq_false_iff, Bool.and_eq_false_iff, decide_eq_false_iff_not]
    omega
  split
  · next hbuf =>
    cases dir with
    | w => exact .inr ⟨hreg, fun h => nomatch h⟩
    | r =>
      refine ⟨rfl, ?_, by omega, eq_outAddr h4 (by omega) (by omega)⟩
      simp only [VoiceId.present, decide_eq_true_eq, Fin.val_ofNat]
      omega
  · refine .inr ⟨hreg, fun _ => ?_⟩
    simp only [bufferAddr, Bool.and_eq_false_iff, decide_eq_false_iff_not]
    omega

end Sys2Proof

namespace Sys2Proof

theorem vrenderWord_toNat (n : BitVec 16) : (vrenderWord n).toNat = 0x02000000 + n.toNat := by
  have hn := n.isLt
  rw [vrenderWord, BitVec.toNat_append, ← Nat.shiftLeft_add_eq_or_of_lt hn, Nat.shiftLeft_eq]
  rfl

/-- A word with VRENDER's upper half is VRENDER's, for the count in its lower half (30_encoding.md R143). -/
theorem eq_vrenderWord {w : Word} (hop : (w.extractLsb' 24 8).toNat = 0x02) (hrsv : (w.extractLsb' 16 8).toNat = 0) :
    w = vrenderWord (w.extractLsb' 0 16) := by
  have hlt := w.isLt
  apply BitVec.eq_of_toNat_eq
  rw [vrenderWord_toNat]
  simp only [BitVec.extractLsb'_toNat, Nat.shiftRight_eq_div_pow] at hop hrsv ⊢
  omega

/-- The fields of a word with VRENDER's upper half. -/
theorem fields_of_vrender_mask {w : Word} (h : w &&& 0xFFFF0000#32 = 0x02000000#32) :
    (w.extractLsb' 24 8).toNat = 0x02 ∧ (w.extractLsb' 16 8).toNat = 0 := by
  have hop := congrArg (BitVec.extractLsb' 24 8) h
  have hrsv := congrArg (BitVec.extractLsb' 16 8) h
  rw [BitVec.extractLsb'_and] at hop hrsv
  have hones : (0xFFFF0000#32).extractLsb' 24 8 = BitVec.allOnes 8 ∧
      (0xFFFF0000#32).extractLsb' 16 8 = BitVec.allOnes 8 := by decide
  rw [hones.1, BitVec.and_allOnes] at hop
  rw [hones.2, BitVec.and_allOnes] at hrsv
  rw [hop, hrsv]
  decide

/-- Each command decodes from the words of its form, and CMD.ILLEGAL from those of none (30_encoding.md R143, R144). -/
theorem decodeCmd_cases (w : Word) :
    (decodeCmd w = .vinit ∧ w = 0x01000000#32) ∨ (∃ n, decodeCmd w = .vrender n ∧ w = vrenderWord n) ∨
      (decodeCmd w = .vfree ∧ w = 0x03000000#32) ∨ (decodeCmd w = .illegal ∧ illegalCommand w = true) := by
  have hlt := w.isLt
  have hword {op : Nat} (hop : (w.extractLsb' 24 8).toNat = op) (hrsv : (w.extractLsb' 16 8).toNat = 0)
      (hcnt : w.extractLsb' 0 16 = 0) : w.toNat = op * 2 ^ 24 := by
    have hcnt' := congrArg BitVec.toNat hcnt
    simp only [BitVec.extractLsb'_toNat, Nat.shiftRight_eq_div_pow, BitVec.ofNat_eq_ofNat, BitVec.toNat_ofNat] at hop hrsv hcnt'
    omega
  unfold decodeCmd
  dsimp only
  split
  · next h =>
    obtain ⟨hop, hrsv, hcnt⟩ := h
    exact .inl ⟨rfl, BitVec.eq_of_toNat_eq (hword hop hrsv hcnt)⟩
  next hinit =>
  split
  · next h =>
    obtain ⟨hop, hrsv⟩ := h
    exact .inr (.inl ⟨_, rfl, eq_vrenderWord hop hrsv⟩)
  next hrender =>
  split
  · next h =>
    obtain ⟨hop, hrsv, hcnt⟩ := h
    exact .inr (.inr (.inl ⟨rfl, BitVec.eq_of_toNat_eq (hword hop hrsv hcnt)⟩))
  next hfree =>
  refine .inr (.inr (.inr ⟨rfl, ?_⟩))
  simp only [illegalCommand, Bool.and_eq_true, bne_iff_ne, ne_eq]
  refine ⟨⟨?_, fun h => hrender (fields_of_vrender_mask h)⟩, ?_⟩
  · rintro rfl
    exact hinit (by decide)
  · rintro rfl
    exact hfree (by decide)

/-- A write to CMD(v) selects a well-formed operation of voice `v`, and that operation's data word is the one written. -/
theorem ofCmd_wf_and_encode {c : Config} {v : VoiceId} (hv : v.present c = true) (w : Word) :
    (Instr.ofCmd v w).wf c = true ∧ encode (Instr.ofCmd v w) = .write (voiceRegAddr v 0x0) w := by
  unfold Instr.ofCmd
  rcases decodeCmd_cases w with ⟨h, hw⟩ | ⟨n, h, hw⟩ | ⟨h, hw⟩ | ⟨h, hw⟩ <;> rw [h]
  · exact ⟨hv, by rw [hw]; rfl⟩
  · exact ⟨hv, by rw [hw]; rfl⟩
  · exact ⟨hv, by rw [hw]; rfl⟩
  · exact ⟨by simp [Instr.wf, hv, hw], rfl⟩

/-- A read selects a well-formed operation, and that operation is the read. -/
theorem decodeRead_wf_and_encode {c : Config} (hc : c.wf = true) (a : Word) :
    (decodeRead c a).wf c = true ∧ encode (decodeRead c a) = .read a := by
  have hat := decodeBus_at hc .r a
  unfold decodeRead
  cases htarget : decodeBus c .r a <;> rw [htarget] at hat <;> dsimp only
  case buserr =>
    refine ⟨?_, rfl⟩
    simp only [Target.At, forall_const] at hat
    simpa [Instr.wf, Txn.isBusError] using hat
  case param p => exact ⟨wf_rdParam c p, by rw [encode_rdParam, hat]⟩
  case razwi => exact ⟨hat, rfl⟩
  case gstatus => exact ⟨rfl, by rw [hat]; rfl⟩
  case ginfo => exact ⟨rfl, by rw [hat]; rfl⟩
  case cmd v => exact ⟨hat.1, by rw [hat.2]; rfl⟩
  case status v => exact ⟨hat.1, by rw [hat.2]; rfl⟩
  case freq v => exact ⟨hat.1, by rw [hat.2]; rfl⟩
  case out v i s =>
    obtain ⟨-, hv, hi, ha⟩ := hat
    exact ⟨by simp [Instr.wf, hv, hi], by rw [ha]; rfl⟩

/-- A write selects a well-formed operation, and that operation is the write. -/
theorem decodeWrite_wf_and_encode {c : Config} (hc : c.wf = true) (a d : Word) :
    (decodeWrite c a d).wf c = true ∧ encode (decodeWrite c a d) = .write a d := by
  have hat := decodeBus_at hc .w a
  unfold decodeWrite
  cases htarget : decodeBus c .w a <;> rw [htarget] at hat <;> dsimp only
  case buserr =>
    refine ⟨?_, rfl⟩
    simp only [Target.At, reduceCtorEq, false_implies, and_true] at hat
    simpa [Instr.wf, Txn.isBusError] using hat
  case param p => exact ⟨wf_wrParam c p d, by rw [encode_wrParam, hat]⟩
  case razwi => exact ⟨hat, rfl⟩
  case gstatus => exact ⟨rfl, by rw [hat]; rfl⟩
  case ginfo => exact ⟨rfl, by rw [hat]; rfl⟩
  case cmd v =>
    obtain ⟨hv, ha⟩ := hat
    rw [ha]
    exact ofCmd_wf_and_encode hv d
  case status v => exact ⟨hat.1, by rw [hat.2]; rfl⟩
  case freq v => exact ⟨hat.1, by rw [hat.2]; rfl⟩
  case out v i s => exact absurd hat.1 (by decide)

/-- Every transaction selects a well-formed operation (R145). -/
theorem decode_wf {c : Config} (hc : c.wf = true) (t : Txn) : (decode c t).wf c = true := by
  cases t with
  | read a => exact (decodeRead_wf_and_encode hc a).1
  | write a d => exact (decodeWrite_wf_and_encode hc a d).1

/-- The decoder drops no bit of a transaction: the operation's own transaction is the one decoded. -/
theorem encode_decode {c : Config} (hc : c.wf = true) (t : Txn) : encode (decode c t) = t := by
  cases t with
  | read a => exact (decodeRead_wf_and_encode hc a).2
  | write a d => exact (decodeWrite_wf_and_encode hc a d).2

end Sys2Proof

namespace Sys2Proof.Machine

/-- What `derive` gives to count up to lies below 2^31. -/
theorem deriveTone_lt {c : Config} (hc : c.wf = true) (p : ToneParams) :
    (deriveTone c p).swRate < 2 ^ 31 ∧ (deriveTone c p).envLen < 2 ^ 31 :=
  ⟨wavelengthNat_lt hc _, wavelengthNat_lt hc _⟩

theorem frame_noise (c : Config) (p : Params) (d : Derived) (x y : F32) (h : VoiceState) :
    (frame c p d x y h).noise = noiseNext p.ch4 d.envLen4 h.noise := rfl

/-- A frame keeps R70 and R71. -/
theorem frame_inv_and_bounded {c : Config} (hc : c.wf = true) (p : Params) (x y : F32) {h : VoiceState}
    (hh : h.inv ∧ h.bounded c) :
    (frame c p (derive c p) x y h).inv ∧ (frame c p (derive c p) x y h).bounded c := by
  rw [VoiceState.inv_and_bounded_iff] at hh ⊢
  obtain ⟨hmax, h1, h2, h3, h4⟩ := hh
  obtain ⟨hsw1, henv1⟩ := deriveTone_lt hc p.ch1
  obtain ⟨hsw2, henv2⟩ := deriveTone_lt hc p.ch2
  rw [frame_maxWlen, frame_ch1, frame_ch2, frame_wlen3, frame_noise]
  exact ⟨hmax, toneNext_ok _ _ hsw1 henv1 h1, toneNext_ok _ _ hsw2 henv2 h2, h3, noiseNext_ok _ (wavelengthNat_lt hc _) h4⟩

theorem le_toneBound {w : Nat} (maxWlen : Nat) (hw : w < 2 ^ 31) : w ≤ toneBound maxWlen := by
  unfold toneBound; omega

/-- The bounds on a tone channel, carried to one that differs at most in its wavelength. -/
theorem ToneState.Ok.congr {m : Nat} {t u : ToneState} (h : t.Ok m) (hw : u.wlen ≤ toneBound m)
    (hp : u.phase = t.phase) (hs : u.sweepCtr = t.sweepCtr) (he : u.env = t.env) : u.Ok m :=
  { envVal := he ▸ h.envVal, wlen := hw, phase := hp ▸ h.phase, sweepCtr := hs ▸ h.sweepCtr, envCtr := he ▸ h.envCtr }

/-- The wavelengths a render starts with keep R70: pitch gives none from 2^31 on. -/
theorem renderStart_inv_and_bounded {c : Config} (hc : c.wf = true) (p : Params) {f : Word} (hf : validFreq f = true)
    {h : VoiceState} (hh : h.inv ∧ h.bounded c) :
    (renderStart c p f h).inv ∧ (renderStart c p f h).bounded c := by
  rw [VoiceState.inv_and_bounded_iff] at hh ⊢
  obtain ⟨hmax, h1, h2, h3, h4⟩ := hh
  have hw : (renderStart c p f h).ch1.wlen ≤ toneBound h.maxWlen ∧
      (renderStart c p f h).ch2.wlen ≤ toneBound h.maxWlen ∧ (renderStart c p f h).wlen3 < 2 ^ 31 := by
    by_cases hp : f = h.cachedFreq
    · obtain ⟨e1, e2, e3⟩ := renderStart_wlen_of_eq c p hp
      rw [e1, e2, e3]
      exact ⟨h1.wlen, h2.wlen, h3⟩
    · obtain ⟨e1, e2, e3⟩ := renderStart_wlen_of_ne c p hp
      rw [e1, e2, e3]
      exact ⟨le_toneBound _ (detunedWlen_lt hc hf _), le_toneBound _ (detunedWlen_lt hc hf _), detunedWlen_lt hc hf _⟩
  obtain ⟨hw1, hw2, hw3⟩ := hw
  have hnoise : (renderStart c p f h).noise = { h.noise with wlen := noiseWlen c p.ch4 f } := by simp [VoiceState.noise]
  rw [renderStart_maxWlen, hnoise]
  exact ⟨hmax, h1.congr hw1 (by simp) (by simp) (by simp), h2.congr hw2 (by simp) (by simp) (by simp), hw3,
    { h4 with wlen := noiseWlen_lt hc hf _ }⟩

/-- A render keeps R70 and R71: its start does, and every frame. -/
theorem render_inv_and_bounded {c : Config} (hc : c.wf = true) (p : Params) (v : VoiceId) (n : Nat) {x : Voice} (m : Mem)
    (hf : validFreq x.freq = true) (hx : x.hid.inv ∧ x.hid.bounded c) :
    (render c p v n x m).hid.inv ∧ (render c p v n x m).hid.bounded c :=
  renderFrames_hid_induct (I := fun h => h.inv ∧ h.bounded c) (fun _ _ _ => frame_inv_and_bounded hc p _ _) n 0 _
    (renderStart_inv_and_bounded hc p hf hx)

/-- VINIT's hidden state keeps R70 and R71 (R220). -/
theorem init_inv_and_bounded {c : Config} (hc : c.wf = true) :
    (VoiceState.init c).inv ∧ (VoiceState.init c).bounded c := by
  obtain ⟨hseed, hseed15⟩ := Config.wf_lfsrSeed hc
  have hpos := Nat.two_pow_pos 31
  have htone : ToneState.init.Ok c.maxWlen := ⟨le_refl 15, Nat.zero_le _, toneBound_pos _, hpos, hpos⟩
  exact VoiceState.inv_and_bounded_iff.mpr
    ⟨rfl, htone, htone, hpos, ⟨le_refl 15, hpos, hpos, hpos, hseed, hseed15⟩⟩

/-! ## Everything an operation leaves of registers, BUSERR, slots and memory -/

/-- An operation changes the Parameter Set only as a register write, to a stored value (R43, R182). -/
theorem Effect.params_cases {i : Instr} {s t : State} (h : Effect i s t) :
    t.params = s.params ∨ ∃ p d, i = .wrParam p d ∧ t.params = s.params.set p (paramStored p d) := by
  cases h with
  | wroteParam p d hi => exact .inr ⟨p, d, hi, rfl⟩
  | _ => exact .inl rfl

/-- An operation changes BUSERR only as a write of GSTATUS or as a bus error (R64). -/
theorem Effect.busErr_cases {i : Instr} {s t : State} (h : Effect i s t) :
    t.busErr = s.busErr ∨ (∃ d, i = .wrGstatus d ∧ t.busErr = busErrAfterWrite d s.busErr) ∨
      (t.busErr = true ∧ ((∃ x, i = .busErr x) ∨ i.wf s.cfg = false)) := by
  cases h with
  | wroteGstatus d hi => exact .inr (.inl ⟨d, hi, rfl⟩)
  | busError r hi => exact .inr (.inr ⟨rfl, hi⟩)
  | _ => exact .inl rfl

/-- An operation changes memory only as a render of a present voice, of at most BLOCK_FRAMES frames (R107). -/
theorem Effect.mem_cases {i : Instr} {s t : State} (h : Effect i s t) :
    t.mem = s.mem ∨ ∃ v n, i = .vrender v n ∧ v.present s.cfg = true ∧ n.toNat ≤ s.cfg.blockFrames ∧
      t.mem = (render s.cfg s.params v n.toNat (getVoice s v) s.mem).mem := by
  cases h with
  | rendered v n hi hv _ _ hn _ => exact .inr ⟨v, n, hi, hv, hn, rfl⟩
  | _ => exact .inl rfl

/-- An operation changes no voice slot but the one it names (R73). -/
theorem Effect.getVoice_eq {i : Instr} {s t : State} (h : Effect i s t) {u : VoiceId} (hu : Instr.voice? i ≠ some u) :
    getVoice t u = getVoice s u := by
  have hne {v : VoiceId} (hi : Instr.voice? i = some v) : u ≠ v := fun e => hu (e ▸ hi)
  cases h with
  | wroteFreq v d hi hv => exact getVoice_setVoice_of_ne s v u _ (hne (hi ▸ rfl))
  | created v hi hv => exact getVoice_setVoice_of_ne s v u _ (hne (hi ▸ rfl))
  | freed v hi hv ha => exact getVoice_setVoice_of_ne s v u _ (hne (hi ▸ rfl))
  | raised v code hi hv hc =>
    refine getVoice_setVoice_of_ne s v u _ (hne ?_)
    rcases hi with ⟨w, rfl⟩ | ⟨n, rfl⟩ <;> rfl
  | rendered v n hi hv ha h0 hn hf => exact getVoice_setVoice_of_ne s v u _ (hne (hi ▸ rfl))
  | _ => rfl

/-! ## The invariant -/

theorem Effect.params_legal {i : Instr} {s t : State} (h : Effect i s t) (hs : s.params.legal) : t.params.legal := by
  rcases h.params_cases with e | ⟨p, d, -, e⟩
  · rwa [e]
  · intro q
    rw [e, Params.get_set]
    split
    · next hq => exact hq ▸ paramStored_legal p d
    · exact hs q

theorem Effect.mem_wf {i : Instr} {s t : State} (h : Effect i s t) (hs : s.mem.wf = true) : t.mem.wf = true := by
  rcases h.mem_cases with e | ⟨v, n, -, -, -, e⟩
  · rwa [e]
  · rw [e]
    exact renderFrames_wf _ _ _ _ _ _ _ hs

/-- The frames of a present voice lie in its buffer (R102, R106). -/
theorem bufferAddr_of_frame {c : Config} {v : VoiceId} {n a : Nat} (hb : c.blockFrames ≤ 8192)
    (hv : v.present c = true) (hn : n ≤ c.blockFrames) (hlo : outAddr v 0 .left ≤ a) (hhi : a < outAddr v n .left) :
    bufferAddr c a = true := by
  simp only [VoiceId.present, decide_eq_true_eq] at hv
  simp only [outAddr, Side.num] at hlo hhi
  simp only [bufferAddr, Bool.and_eq_true, decide_eq_true_eq]
  omega

theorem Effect.mem_inBuffers {i : Instr} {s t : State} (h : Effect i s t) (hc : s.cfg.wf = true)
    (hs : s.mem.inBuffers s.cfg) : t.mem.inBuffers s.cfg := by
  obtain ⟨-, hblock, -⟩ := Config.wf_bounds hc
  rcases h.mem_cases with e | ⟨v, n, -, hv, hn, e⟩
  · rwa [e]
  · intro cell hcell
    rw [e] at hcell
    rcases mem_renderFrames hcell with ⟨hlo, hhi⟩ | hcell
    · exact bufferAddr_of_frame hblock hv hn hlo (by simpa using hhi)
    · exact hs cell hcell

/-- What the invariant says of one voice slot. -/
def Voice.Ok (c : Config) (x : Voice) : Prop := x.alive = true → x.hid.inv ∧ x.hid.bounded c

theorem Voice.ok_of_not_alive {c : Config} {x : Voice} (h : x.alive = false) : x.Ok c :=
  fun ha => absurd (h.symm.trans ha) Bool.false_ne_true

theorem getVoice_setVoice_ok {s : State} {v : VoiceId} {x : Voice} (hs : ∀ u, (getVoice s u).Ok s.cfg)
    (hx : x.Ok s.cfg) (u : VoiceId) : (getVoice (setVoice s v x) u).Ok s.cfg := by
  rw [getVoice_setVoice]
  split
  · exact hx
  · exact hs u

/-- An operation leaves every voice slot as the invariant asks: a slot it creates, renders or frees, and every other. -/
theorem Effect.voice_ok {i : Instr} {s t : State} (h : Effect i s t) (hc : s.cfg.wf = true)
    (hs : ∀ u, (getVoice s u).Ok s.cfg) (u : VoiceId) : (getVoice t u).Ok s.cfg := by
  cases h with
  | wroteFreq v d hi hv => exact getVoice_setVoice_ok (x := { getVoice s v with freq := d }) hs (hs v) u
  | created v hi hv => exact getVoice_setVoice_ok hs (fun _ => init_inv_and_bounded hc) u
  | freed v hi hv ha => exact getVoice_setVoice_ok hs (Voice.ok_of_not_alive rfl) u
  | raised v code hi hv hcode =>
    exact getVoice_setVoice_ok (x := { getVoice s v with err := errAfterRaise code (getVoice s v).err }) hs (hs v) u
  | rendered v n hi hv ha h0 hn hf =>
    exact getVoice_setVoice_ok hs (fun _ => render_inv_and_bounded hc _ _ _ _ hf (hs v ha)) u
  | _ => exact hs u

/-- Every operation keeps the invariant. -/
theorem Effect.inv {i : Instr} {s t : State} (h : Effect i s t) (hs : s.Inv) : t.Inv :=
  { cfgOk := h.cfg_eq ▸ hs.cfgOk
    regs := h.params_legal hs.regs
    memWf := h.mem_wf hs.memWf
    memIn := h.cfg_eq ▸ h.mem_inBuffers hs.cfgOk hs.memIn
    voice := h.cfg_eq ▸ h.voice_ok hs.cfgOk hs.voice }

theorem Params.legal_reset : Params.reset.legal := by
  intro p
  cases p <;> decide

/-- Right after a reset the invariant holds: no byte is listed and no voice is alive (R440). -/
theorem inv_of_reset {s : State} (hc : s.cfg.wf = true) (hp : s.params = Params.reset) (hm : s.mem = [])
    (hv : ∀ v, (getVoice s v).alive = false) : s.Inv :=
  { cfgOk := hc
    regs := hp ▸ Params.legal_reset
    memWf := hm ▸ rfl
    memIn := fun _ hcell => absurd (hm ▸ hcell) List.not_mem_nil
    voice := fun v => Voice.ok_of_not_alive (hv v) }

theorem inv_resetWith {c : Config} (hc : c.wf = true) : (State.resetWith c).Inv :=
  inv_of_reset hc rfl rfl fun v => by rw [getVoice_resetWith]; rfl

/-- Settles O56, by the three ways a step gives a next state. -/
theorem invariantKept : Obligations.InvariantKept := by
  intro s t hs h
  obtain ⟨hc, ⟨-, rfl⟩ | ⟨x, rest, -, hx⟩ | ⟨rest, -, rfl⟩⟩ := step_cases h
  · exact hs
  · exact (exec_effect hx).inv { hs with }
  · exact inv_of_reset hc rfl rfl fun v => by simp [Voice.reset]

/-- Settles O55: no voice is alive after reset, so only registers and memory are to check. -/
theorem invariantAtReset : Obligations.InvariantAtReset :=
  ⟨fun _ hc => inv_resetWith hc, inv_resetWith (by decide)⟩

end Sys2Proof.Machine

namespace Sys2Proof.Machine

/-! ## Registers and BUSERR over a step (R43, R64) -/

/-- Settles O14: a register write is the transaction that encodes it. -/
theorem onlyWritesChangeParams : Obligations.OnlyWritesChangeParams := by
  intro s t h hne
  obtain ⟨hc, ⟨-, rfl⟩ | ⟨x, rest, hin, hx⟩ | ⟨rest, hin, -⟩⟩ := step_cases h
  · exact absurd rfl hne
  · rcases (exec_effect hx).params_cases with e | ⟨p, d, hi, -⟩
    · exact absurd e hne
    · have henc : x = .write p.addr d := by rw [← encode_decode hc x, hi, encode_wrParam]
      exact .inr ⟨p, d, rest, henc ▸ hin⟩
  · exact .inl ⟨rest, hin⟩

/-- An operation that clears BUSERR is a write of GSTATUS with bit 0 = 1. -/
theorem Effect.wrGstatus_of_clears {i : Instr} {s t : State} (h : Effect i s t) (hs : s.busErr = true)
    (ht : t.busErr = false) : ∃ d, i = .wrGstatus d ∧ d.getLsbD 0 = true := by
  rcases h.busErr_cases with e | ⟨d, hi, e⟩ | ⟨e, -⟩
  · simp [e, hs] at ht
  · exact ⟨d, hi, by simpa [e, hs, busErrAfterWrite] using ht⟩
  · simp [e] at ht

/-- An operation that sets BUSERR is the bus error, or one the decoder never selects. -/
theorem Effect.busErr_of_sets {i : Instr} {s t : State} (h : Effect i s t) (hs : s.busErr = false)
    (ht : t.busErr = true) : (∃ x, i = .busErr x) ∨ i.wf s.cfg = false := by
  rcases h.busErr_cases with e | ⟨d, hi, e⟩ | ⟨-, hi⟩
  · simp [e, hs] at ht
  · simp [e, hs, busErrAfterWrite] at ht
  · exact hi

/-- A transaction that decodes to the bus error is one the block does not accept (R148, R180). -/
theorem isBusError_of_decode {c : Config} (hc : c.wf = true) {x y : Txn} (h : decode c x = .busErr y) :
    x.isBusError c = true := by
  have hwf := decode_wf hc x
  have henc := encode_decode hc x
  rw [h] at hwf henc
  exact henc ▸ hwf

/-- Settles O20: among operations a GSTATUS write alone clears BUSERR, and a bus error alone sets it; block reset
clears it. -/
theorem buserrLifecycle : Obligations.BuserrLifecycle := by
  intro s t h
  obtain ⟨hc, ⟨-, rfl⟩ | ⟨x, rest, hin, hx⟩ | ⟨rest, hin, rfl⟩⟩ := step_cases h
  · exact ⟨fun hs ht => absurd (hs.symm.trans ht) (by decide), fun hs ht => absurd (hs.symm.trans ht) (by decide)⟩
  · refine ⟨fun hs ht => .inr ?_, fun hs ht => ⟨x, rest, hin, ?_⟩⟩
    · obtain ⟨d, hi, hd⟩ := (exec_effect hx).wrGstatus_of_clears hs ht
      have henc : x = .write 0x000000F0#32 d := by rw [← encode_decode hc x, hi]; rfl
      exact ⟨d, rest, henc ▸ hin, hd⟩
    · rcases (exec_effect hx).busErr_of_sets hs ht with ⟨y, hy⟩ | hwf
      · exact isBusError_of_decode hc hy
      · exact absurd ((decode_wf hc x).symm.trans hwf) (by decide)
  · exact ⟨fun _ _ => .inl ⟨rest, hin⟩, fun _ ht => absurd ht (by simp)⟩

/-! ## Voices do not see each other (R73) -/

/-- The 64 KiB windows of two voices do not overlap (20_memory.md R106). -/
theorem outside_frames_of_window {v u : VoiceId} {n b : Nat} (hne : u ≠ v) (hn : n ≤ 8192)
    (hlo : 0x10000 * (u.val + 1) ≤ b) (hhi : b < 0x10000 * (u.val + 2)) :
    b < outAddr v 0 .left ∨ outAddr v (0 + n) .left ≤ b := by
  have hval : u.val ≠ v.val := Fin.val_ne_of_ne hne
  simp only [outAddr, Side.num]
  omega

/-- Settles O33: only a render writes memory, and its frames lie in its own voice's window. -/
theorem voiceIsolation : Obligations.VoiceIsolation := by
  intro i s t u hc hwf h hu
  have heff := exec_effect h
  refine ⟨heff.getVoice_eq hu, fun b hlo hhi => ?_⟩
  obtain ⟨-, hblock, -⟩ := Config.wf_bounds hc
  rcases heff.mem_cases with e | ⟨v, n, rfl, -, hn, e⟩
  · rw [e]
  · have hne : u ≠ v := fun e => hu (e ▸ rfl)
    rw [e]
    exact renderFrames_readByte _ _ _ _ _ _ _ _ hwf (outside_frames_of_window hne (hn.trans hblock) hlo hhi)

/-! ## The host does not see hidden state (R72) -/

/-- Two outcomes the host cannot tell apart. -/
def SameOutcome (o o' : Out) : Prop :=
  (∀ t, o = .next t → ∃ t', o' = .next t' ∧ State.SameToHost t t') ∧ ∀ f, o = .fault f → o' = .fault f

theorem SameOutcome.next {t t' : State} (h : State.SameToHost t t') : SameOutcome (.next t) (.next t') :=
  ⟨fun _ e => ⟨t', rfl, Host.Outcome.next.inj e ▸ h⟩, fun _ e => nomatch e⟩

theorem SameOutcome.fault (f : Fault) : SameOutcome (.fault f) (.fault f) :=
  ⟨fun _ e => (nomatch e), fun _ e => e⟩

section
variable {s s' : State}

theorem sameOutcome_done (h : State.SameToHost s s') : SameOutcome (done s) (done s') :=
  .next { h with reply := rfl }

theorem sameOutcome_answer (h : State.SameToHost s s') (w : Word) : SameOutcome (answer w s) (answer w s') :=
  .next { h with reply := rfl }

theorem sameOutcome_busError (h : State.SameToHost s s') (dir : Dir) : SameOutcome (busError dir s) (busError dir s') := by
  cases dir with
  | r => exact sameOutcome_answer (s := { s with busErr := true }) (s' := { s' with busErr := true }) { h with busErr := rfl } _
  | w => exact sameOutcome_done (s := { s with busErr := true }) (s' := { s' with busErr := true }) { h with busErr := rfl }

/-- Slots that agree on ALIVE, ERR and FREQ may be put into both states. -/
theorem sameToHost_setVoice (h : State.SameToHost s s') (v : VoiceId) {x x' : Voice}
    (hx : x'.alive = x.alive ∧ x'.err = x.err ∧ x'.freq = x.freq) :
    State.SameToHost (setVoice s v x) (setVoice s' v x') :=
  { h with
    voices := fun u => by
      rw [getVoice_setVoice, getVoice_setVoice]
      split
      · exact hx
      · exact h.voices u }

theorem sameOutcome_raiseError (h : State.SameToHost s s') (code : ErrCode) (v : VoiceId) :
    SameOutcome (raiseError code v s) (raiseError code v s') := by
  obtain ⟨ha, he, hf⟩ := h.voices v
  exact sameOutcome_done (sameToHost_setVoice h v ⟨ha, congrArg (errAfterRaise code) he, hf⟩)

theorem sameOutcome_onVoice (h : State.SameToHost s s') (v : VoiceId) (dir : Dir) {k k' : Voice → Out}
    (hk : SameOutcome (k (getVoice s v)) (k' (getVoice s' v))) :
    SameOutcome (onVoice v dir s k) (onVoice v dir s' k') := by
  unfold onVoice
  rw [h.cfg]
  split
  · exact hk
  · exact sameOutcome_busError h dir

theorem sameOutcome_rdOut (h : State.SameToHost s s') (v : VoiceId) (i : BitVec 13) (c : Side) :
    SameOutcome (execRdOut v i c s) (execRdOut v i c s') := by
  refine sameOutcome_onVoice h v .r ?_
  rw [h.cfg, h.mem]
  split
  · split
    · exact sameOutcome_answer h _
    · exact .fault _
  · exact sameOutcome_busError h .r

theorem sameOutcome_vfree (h : State.SameToHost s s') (v : VoiceId) : SameOutcome (execVfree v s) (execVfree v s') := by
  refine sameOutcome_onVoice h v .w ?_
  obtain ⟨ha, he, hf⟩ := h.voices v
  rw [ha]
  split
  · have hfree := sameToHost_setVoice h v
      (x := { getVoice s v with alive := false, hid := VoiceState.free s.freeSerial })
      (x' := { getVoice s' v with alive := false, hid := VoiceState.free s'.freeSerial }) ⟨rfl, he, hf⟩
    exact sameOutcome_done { hfree with }
  · exact sameOutcome_done h

end

/-- Settles O35, operation by operation: none but VRENDER reads a slot beyond ALIVE, ERR and FREQ. -/
theorem hiddenStateInvisible : Obligations.HiddenStateInvisible := by
  intro i s s' h hi
  change SameOutcome (exec i s) (exec i s')
  induction i using Instr.byKind with
  | hw p d =>
    rw [exec_wrParam, exec_wrParam]
    exact sameOutcome_done { h with params := congrArg (Params.set · p _) h.params }
  | hr p =>
    rw [exec_rdParam, exec_rdParam, readParam, readParam, h.params]
    exact sameOutcome_answer h _
  | hWrRsv a d => exact sameOutcome_done h
  | hRdRsv a => exact sameOutcome_answer h _
  | hWrGstatus d => exact sameOutcome_done { h with busErr := congrArg (busErrAfterWrite d) h.busErr }
  | hRdGstatus =>
    rw [exec_rdGstatus, exec_rdGstatus, execRdGstatus, execRdGstatus, h.busErr]
    exact sameOutcome_answer h _
  | hWrGinfo d => exact sameOutcome_done h
  | hRdGinfo =>
    rw [exec_rdGinfo, exec_rdGinfo, execRdGinfo, execRdGinfo, h.cfg]
    exact sameOutcome_answer h _
  | hVinit v =>
    obtain ⟨-, -, hf⟩ := h.voices v
    rw [exec_vinit, exec_vinit]
    exact sameOutcome_onVoice h v .w (sameOutcome_done (sameToHost_setVoice h v ⟨rfl, rfl, hf⟩))
  | hVrender v n => exact absurd rfl (hi v n)
  | hVfree v => exact sameOutcome_vfree h v
  | hCmdIllegal v w =>
    rw [exec_cmdIllegal, exec_cmdIllegal]
    exact sameOutcome_onVoice h v .w (sameOutcome_raiseError h _ v)
  | hRdCmd v =>
    rw [exec_rdCmd, exec_rdCmd]
    exact sameOutcome_onVoice h v .r (sameOutcome_answer h _)
  | hRdStatus v =>
    obtain ⟨ha, he, -⟩ := h.voices v
    rw [exec_rdStatus, exec_rdStatus]
    refine sameOutcome_onVoice h v .r ?_
    rw [statusWord, statusWord, ha, he]
    exact sameOutcome_answer h _
  | hWrStatus v d =>
    rw [exec_wrStatus, exec_wrStatus]
    exact sameOutcome_onVoice h v .w (sameOutcome_done h)
  | hWrFreq v d =>
    obtain ⟨ha, he, -⟩ := h.voices v
    rw [exec_wrFreq, exec_wrFreq]
    exact sameOutcome_onVoice h v .w (sameOutcome_done (sameToHost_setVoice h v ⟨ha, he, rfl⟩))
  | hRdFreq v =>
    obtain ⟨-, -, hf⟩ := h.voices v
    rw [exec_rdFreq, exec_rdFreq]
    refine sameOutcome_onVoice h v .r ?_
    rw [hf]
    exact sameOutcome_answer h _
  | hRdOut v j c => exact sameOutcome_rdOut h v j c
  | hBusErr t => exact sameOutcome_busError h t.dir

/-! ## VIBRATO (R60) and the register map (R43) -/

/-- A voice that passes VRENDER's checks is rendered (R224). -/
theorem exec_vrender_of_renders {s : State} {v : VoiceId} {n : BitVec 16} (h : s.Renders v n) :
    exec (.vrender v n) s =
      .next { setVoice s v { getVoice s v with
                hid := (render s.cfg s.params v n.toNat (getVoice s v) s.mem).hid
                feed := (render s.cfg s.params v n.toNat (getVoice s v) s.mem).feed } with
              mem := (render s.cfg s.params v n.toNat (getVoice s v) s.mem).mem, reply := none } := by
  have hpos := h.pos
  rw [exec_vrender, execVrender, onVoice_present h.present, if_neg (by simp [h.alive]), frameCount,
    if_neg (Nat.not_lt.mpr h.fits), if_neg (by omega), if_neg (by simp [h.freq])]
  rfl

/-- No rule of a render reads VIBRATO. -/
theorem render_set_vibrato (c : Config) (p : Params) (x : Int) (v : VoiceId) (n : Nat) (y : Voice) (m : Mem) :
    render c (p.set .vibrato x) v n y m = render c p v n y m := by
  have hderive : derive c (p.set .vibrato x) = derive c p := rfl
  have hstart : renderStart c (p.set .vibrato x) y.freq y.hid = renderStart c p y.freq y.hid := rfl
  rw [render, render, hderive, hstart]
  exact renderFrames_params_congr c p (p.set .vibrato x) _ v (fun _ _ _ => rfl) n 0 _

/-- What a write of VIBRATO stores (R60, R182). -/
theorem paramStored_vibrato (d : Word) : paramStored .vibrato d = max 0 (min d.toInt 15) :=
  clamp_eq_max_min _ _ _ (Param.lo_le_hi .vibrato)

/-- Settles O39: the two renders differ in nothing but the Parameter Set they leave. -/
theorem vibratoHasNoEffect : Obligations.VibratoHasNoEffect := by
  intro s v n d h
  have hu : State.Renders { s with params := s.params.set .vibrato (paramStored .vibrato d), reply := none } v n :=
    { h with }
  refine ⟨_, _, _, _, exec_vrender_of_renders h, exec_wrParam .vibrato d s, exec_vrender_of_renders hu, ?_, ?_,
    exec_rdParam .vibrato _, ?_⟩
  · simp only [render_set_vibrato]
    rfl
  · simp only [render_set_vibrato]
    rfl
  · rw [← paramStored_vibrato]
    rfl

/-- Settles O2, row by row. -/
theorem registerMap : Obligations.RegisterMap := by
  unfold Obligations.RegisterMap regRow
  and_intros <;> rfl

end Sys2Proof.Machine

/-! PROOFS. The statements of 20_memory.md: the address map and what is outside it (R102, R103, R109), a step (R100, R113),
reads (R112), and the output buffers (R107). -/

namespace Sys2Proof

/-! ## The bus decoder, from the address to the target (30_encoding.md R145) -/

/-- The ranges of R183 below the global registers hold no register of R43. -/
theorem Param.ofOffset_of_reserved {n : Nat}
    (h : (0x28 ≤ n ∧ n ≤ 0x3C) ∨ (0x68 ≤ n ∧ n ≤ 0x7C) ∨ (0x8C ≤ n ∧ n ≤ 0xBC) ∨ (0xE8 ≤ n ∧ n ≤ 0xEC)) :
    Param.ofOffset? n = none := by
  cases hp : Param.ofOffset? n with
  | none => rfl
  | some p =>
    have hgap : ¬ ((0x28 ≤ p.offset ∧ p.offset ≤ 0x3C) ∨ (0x68 ≤ p.offset ∧ p.offset ≤ 0x7C) ∨
        (0x8C ≤ p.offset ∧ p.offset ≤ 0xBC) ∨ (0xE8 ≤ p.offset ∧ p.offset ≤ 0xEC)) := by
      cases p <;> decide
    rw [Param.offset_of_ofOffset hp] at hgap
    exact absurd h hgap

/-- A reserved location reads as zero and ignores writes (R183). -/
theorem decodeBus_reserved {c : Config} {a : Word} (dir : Dir) (h : reservedAddr c a.toNat = true) :
    decodeBus c dir a = .razwi := by
  simp only [reservedAddr, Bool.and_eq_true, Bool.or_eq_true, decide_eq_true_eq, beq_iff_eq] at h
  obtain ⟨h4, h⟩ := h
  by_cases hn : a.toNat < 0xF0
  · have hnone : Param.ofOffset? a.toNat = none := Param.ofOffset_of_reserved (by omega)
    unfold decodeBus
    simp only [h4, hn, hnone, ne_eq, not_true_eq_false, if_false, if_true]
  by_cases hglobal : a.toNat < 0x100
  · unfold decodeBus
    dsimp only
    rw [if_neg (by omega), if_neg hn, if_neg (by omega), if_neg (by omega), if_pos hglobal]
  · -- the last word of a present voice's block
    obtain ⟨v, hv⟩ : ∃ v : VoiceId, v.val = (a.toNat - 0x100) / 16 := ⟨⟨(a.toNat - 0x100) / 16, by omega⟩, rfl⟩
    have haddr : a = voiceRegAddr v 0xC := by
      apply BitVec.eq_of_toNat_eq
      rw [voiceRegAddr_toNat v 0xC (by decide)]
      omega
    have hpresent : v.present c = true := decide_eq_true (by omega)
    rw [haddr, decodeBus_voice c dir v 0xC (by decide) hpresent]
    rfl

/-- No target lies at a misaligned address, outside the map, or in a buffer on a write (R109, R148). -/
theorem decodeBus_buserr {c : Config} {dir : Dir} {a : Word} (h : Target.buserr.At c dir a) :
    decodeBus c dir a = .buserr := by
  have hlt := a.isLt
  have hvoice : ((a.extractLsb' 4 4).toFin : VoiceId).val = a.toNat / 16 % 16 := by
    simp [Nat.shiftRight_eq_div_pow]
  have hhi : (a.extractLsb' 16 16).toNat = a.toNat / 0x10000 % 0x10000 := by
    simp [BitVec.extractLsb'_toNat, Nat.shiftRight_eq_div_pow]
  have hlow : (a.extractLsb' 0 16).toNat = a.toNat % 0x10000 := by simp [BitVec.extractLsb'_toNat]
  unfold decodeBus
  dsimp only
  rcases h with h4 | ⟨hreg, hbuf⟩
  · exact if_pos h4
  simp only [registerAddr, Bool.or_eq_false_iff, Bool.and_eq_false_iff, decide_eq_false_iff_not] at hreg
  simp only [bufferAddr, Bool.and_eq_false_iff, decide_eq_false_iff_not] at hbuf
  split
  · rfl
  rw [if_neg (by omega), if_neg (by omega), if_neg (by omega), if_neg (by omega)]
  split
  · exact if_pos (by omega)
  cases dir with
  | w => exact ite_self _
  | r =>
    have := hbuf rfl
    exact if_neg (by omega)

/-- `Target.At` determines the decoder: what lies at an address is what it is decoded to. -/
theorem decodeBus_of_at {c : Config} {dir : Dir} {a : Word} {x : Target} (h : x.At c dir a) : decodeBus c dir a = x := by
  cases x with
  | buserr => exact decodeBus_buserr h
  | param p => exact h ▸ decodeBus_param c dir p
  | razwi => exact decodeBus_reserved dir h
  | gstatus => exact h ▸ rfl
  | ginfo => exact h ▸ rfl
  | cmd v =>
    obtain ⟨hv, rfl⟩ := h
    exact decodeBus_voice c dir v 0x0 (by decide) hv
  | status v =>
    obtain ⟨hv, rfl⟩ := h
    exact decodeBus_voice c dir v 0x4 (by decide) hv
  | freq v =>
    obtain ⟨hv, rfl⟩ := h
    exact decodeBus_voice c dir v 0x8 (by decide) hv
  | out v i s =>
    obtain ⟨rfl, hv, hi, rfl⟩ := h
    exact decodeBus_out c v i s hv hi

/-! ## The decoder after the encoder (30_encoding.md R146) -/

theorem decodeCmd_of_illegalCommand {w : Word} (h : illegalCommand w = true) : decodeCmd w = .illegal := by
  rcases decodeCmd_cases w with ⟨-, rfl⟩ | ⟨n, -, rfl⟩ | ⟨-, rfl⟩ | ⟨hdec, -⟩
  · exact absurd h (by decide)
  · have hmask : vrenderWord n &&& 0xFFFF0000#32 = 0x02000000#32 := by
      have hsplit : 0xFFFF0000#32 = 0xFFFF#16 ++ 0#16 := rfl
      rw [vrenderWord, hsplit, BitVec.and_append, BitVec.and_zero]
      rfl
    simp [illegalCommand, hmask] at h
  · exact absurd h (by decide)
  · exact hdec

/-- A write to CMD(v) selects the operation of its command word (R188). -/
theorem decode_write_cmd {c : Config} {v : VoiceId} (hv : v.present c = true) (w : Word) :
    decode c (.write (voiceRegAddr v 0x0) w) = .ofCmd v w := by
  rw [decode, decodeWrite, decodeBus_of_at (x := .cmd v) ⟨hv, rfl⟩]

/-- A transaction R148 and R180 call a bus error decodes to one. -/
theorem decode_of_isBusError {c : Config} {x : Txn} (h : x.isBusError c = true) : decode c x = .busErr x := by
  cases x with
  | read a =>
    have hat : Target.buserr.At c .r a := by simpa [Target.At, Txn.isBusError] using h
    rw [decode, decodeRead, decodeBus_of_at hat]
  | write a d =>
    have hat : Target.buserr.At c .w a := by simpa [Target.At, Txn.isBusError] using h
    rw [decode, decodeWrite, decodeBus_of_at hat]

/-- The transaction of a well-formed operation decodes to that operation. -/
theorem decode_encode {c : Config} {i : Instr} (h : i.wf c = true) : decode c (encode i) = i := by
  induction i using Instr.byKind with
  | hw p d => rw [encode_wrParam, decode_wrParam]
  | hr p => rw [encode_rdParam, decode_rdParam]
  | hWrRsv a d => rw [encode, decode, decodeWrite, decodeBus_of_at (x := .razwi) h]
  | hRdRsv a => rw [encode, decode, decodeRead, decodeBus_of_at (x := .razwi) h]
  | hWrGstatus d => rfl
  | hRdGstatus => rfl
  | hWrGinfo d => rfl
  | hRdGinfo => rfl
  | hVinit v => exact decode_write_cmd h 0x01000000#32
  | hVrender v n => rw [encode, decode_write_cmd h, Instr.ofCmd, decodeCmd_vrender]
  | hVfree v => exact decode_write_cmd h 0x03000000#32
  | hCmdIllegal v w =>
    obtain ⟨hv, hw⟩ := (Bool.and_eq_true _ _).mp h
    rw [encode, decode_write_cmd hv, Instr.ofCmd, decodeCmd_of_illegalCommand hw]
  | hRdCmd v => rw [encode, decode, decodeRead, decodeBus_of_at (x := .cmd v) ⟨h, rfl⟩]
  | hRdStatus v => rw [encode, decode, decodeRead, decodeBus_of_at (x := .status v) ⟨h, rfl⟩]
  | hWrStatus v d => rw [encode, decode, decodeWrite, decodeBus_of_at (x := .status v) ⟨h, rfl⟩]
  | hWrFreq v d => rw [encode, decode, decodeWrite, decodeBus_of_at (x := .freq v) ⟨h, rfl⟩]
  | hRdFreq v => rw [encode, decode, decodeRead, decodeBus_of_at (x := .freq v) ⟨h, rfl⟩]
  | hRdOut v j s =>
    obtain ⟨hv, hj⟩ := (Bool.and_eq_true _ _).mp h
    rw [encode, decode, decodeRead, decodeBus_of_at (x := .out v j s) ⟨rfl, hv, of_decide_eq_true hj, rfl⟩]
  | hBusErr t => exact decode_of_isBusError h

end Sys2Proof

namespace Sys2Proof.Machine

/-! ## A step and its transaction (R100, R113) -/

theorem step_txn {s : State} {x : Txn} {rest : List Event} (hc : s.cfg.wf = true) (hin : s.inbox = .txn x :: rest) :
    step s = exec (decode s.cfg x) { s with inbox := rest } := by
  rw [step, hin]
  exact guardConfig_of_wf hc

/-- Settles O7: the step's own arm, and the decoder after the encoder. -/
theorem stepRunsDecoded : Obligations.StepRunsDecoded := by
  refine ⟨fun s x rest hc hin => step_txn hc hin, fun s i rest hc hi hin => ?_⟩
  rw [step_txn hc hin, decode_encode hi]

/-- Settles O19: no target lies at a misaligned address, so both directions decode to the bus error. -/
theorem misalignedIsBusError : Obligations.MisalignedIsBusError := by
  intro s a d h4
  have hread : (Txn.read a).isBusError s.cfg = true := by simp [Txn.isBusError, h4]
  have hwrite : (Txn.write a d).isBusError s.cfg = true := by simp [Txn.isBusError, h4]
  rw [decode_of_isBusError hread, decode_of_isBusError hwrite]
  exact ⟨busError_eq .r s, busError_eq .w s⟩

/-- Settles O58: among operations a render alone changes memory, and its transaction is the VRENDER that encodes it. -/
theorem onlyRenderWritesBuffers : Obligations.OnlyRenderWritesBuffers := by
  intro s t h hne
  obtain ⟨hc, ⟨-, rfl⟩ | ⟨x, rest, hin, hx⟩ | ⟨rest, hin, -⟩⟩ := step_cases h
  · exact absurd rfl hne
  · rcases (exec_effect hx).mem_cases with e | ⟨v, n, hi, -⟩
    · exact absurd e hne
    · have henc : x = encode (.vrender v n) := by rw [← encode_decode hc x, hi]
      exact .inr ⟨v, n, rest, henc ▸ hin⟩
  · exact .inl ⟨rest, hin⟩

/-! ## Reads (R112) -/

theorem answer_next {w : Word} {s t : State} (h : answer w s = .next t) : ∃ w, t = { s with reply := some w } :=
  ⟨w, (Host.Outcome.next.inj h).symm⟩

theorem onVoice_answer_next {v : VoiceId} {s t : State} {k : Voice → Word} (hv : v.present s.cfg = true)
    (h : onVoice v .r s (fun x => answer (k x) s) = .next t) : ∃ w, t = { s with reply := some w } := by
  rw [onVoice_present hv] at h
  exact answer_next h

/-- A word of a present voice's buffer is returned, or the read faults (R108). -/
theorem execRdOut_next {v : VoiceId} {i : BitVec 13} {c : Side} {s t : State} (hv : v.present s.cfg = true)
    (hi : i.toNat < s.cfg.blockFrames) (h : execRdOut v i c s = .next t) : ∃ w, t = { s with reply := some w } := by
  rw [execRdOut, onVoice_present hv, if_pos hi] at h
  split at h
  · exact answer_next h
  · cases h

/-- Settles O25, target by target: a read of a present location answers, and leaves the rest of the state. -/
theorem readsChangeNothing : Obligations.ReadsChangeNothing := by
  intro s t a hc hbus h
  have hat := decodeBus_at hc .r a
  rw [decode, decodeRead] at h
  cases htarget : decodeBus s.cfg .r a <;> rw [htarget] at hat h <;> dsimp only at h
  case buserr =>
    have herr : (Txn.read a).isBusError s.cfg = true := by simpa [Target.At, Txn.isBusError] using hat
    exact absurd (hbus.symm.trans herr) (by decide)
  case param p => exact answer_next (exec_rdParam p s ▸ h)
  case razwi => exact answer_next h
  case gstatus => exact answer_next h
  case ginfo => exact answer_next h
  case cmd v => exact onVoice_answer_next hat.1 (exec_rdCmd v s ▸ h)
  case status v => exact onVoice_answer_next hat.1 (exec_rdStatus v s ▸ h)
  case freq v => exact onVoice_answer_next hat.1 (exec_rdFreq v s ▸ h)
  case out v i c =>
    obtain ⟨-, hv, hi, -⟩ := hat
    exact execRdOut_next hv hi h

end Sys2Proof.Machine

/-! PROOFS. The statements of 30_encoding.md: the two decoders and the encoder (R143, R145, R146). -/

namespace Sys2Proof

/-! ## The command decoder, form by form (R143) -/

/-- The words of a command's form. -/
def Cmd.HasForm (w : Word) : Cmd → Prop
  | .vinit => w = 0x01000000#32
  | .vrender n => w = vrenderWord n
  | .vfree => w = 0x03000000#32
  | .illegal => illegalCommand w = true

theorem decodeCmd_hasForm (w : Word) : (decodeCmd w).HasForm w := by
  rcases decodeCmd_cases w with ⟨h, hw⟩ | ⟨n, h, hw⟩ | ⟨h, hw⟩ | ⟨h, hw⟩ <;> rw [h] <;> exact hw

/-- The forms exclude one another, so a word's form determines its command. -/
theorem decodeCmd_eq_iff {w : Word} {x : Cmd} : decodeCmd w = x ↔ x.HasForm w := by
  refine ⟨fun h => h ▸ decodeCmd_hasForm w, fun h => ?_⟩
  cases x with
  | vinit => exact h ▸ rfl
  | vrender n => exact h ▸ decodeCmd_vrender n
  | vfree => exact h ▸ rfl
  | illegal => exact decodeCmd_of_illegalCommand h

theorem extractLsb'_vrenderWord (n : BitVec 16) : (vrenderWord n).extractLsb' 0 16 = n :=
  BitVec.extractLsb'_append_eq_right

/-- VRENDER's form in match and mask form, with its COUNT field. -/
theorem eq_vrenderWord_iff {w : Word} {n : BitVec 16} :
    w = vrenderWord n ↔ w &&& 0xFFFF0000#32 = 0x02000000#32 ∧ n = w.extractLsb' 0 16 := by
  constructor
  · rintro rfl
    exact ⟨Laws.TableRow.vrenderWord_match n, (extractLsb'_vrenderWord n).symm⟩
  · rintro ⟨hmask, rfl⟩
    obtain ⟨hop, hrsv⟩ := fields_of_vrender_mask hmask
    exact eq_vrenderWord hop hrsv

theorem illegalCommand_iff {w : Word} :
    illegalCommand w = true ↔ w ≠ 0x01000000#32 ∧ w &&& 0xFFFF0000#32 ≠ 0x02000000#32 ∧ w ≠ 0x03000000#32 := by
  simp only [illegalCommand, Bool.and_eq_true, bne_iff_ne, and_assoc]

end Sys2Proof

namespace Sys2Proof.Machine

/-! ## Operations on an absent voice (R145) -/

/-- Each of the ten voice operations checks first that its voice is present, and is a bus error of its direction if not. -/
theorem exec_voiceOp_absent {v : VoiceId} {n : BitVec 16} {w d : Word} {i : BitVec 13} {c : Side} {op : Instr} {s : State}
    (hv : v.present s.cfg = false) (hop : op ∈ voiceOps v n w d i c) : ∃ dir, exec op s = busError dir s := by
  simp only [voiceOps, List.mem_cons, List.not_mem_nil, or_false] at hop
  rcases hop with rfl | rfl | rfl | rfl | rfl | rfl | rfl | rfl | rfl | rfl
  · exact ⟨.w, (exec_vinit v s).trans (onVoice_absent hv)⟩
  · exact ⟨.w, (exec_vrender v n s).trans (onVoice_absent hv)⟩
  · exact ⟨.w, (exec_vfree v s).trans (onVoice_absent hv)⟩
  · exact ⟨.w, (exec_cmdIllegal v w s).trans (onVoice_absent hv)⟩
  · exact ⟨.r, (exec_rdCmd v s).trans (onVoice_absent hv)⟩
  · exact ⟨.r, (exec_rdStatus v s).trans (onVoice_absent hv)⟩
  · exact ⟨.w, (exec_wrStatus v d s).trans (onVoice_absent hv)⟩
  · exact ⟨.w, (exec_wrFreq v d s).trans (onVoice_absent hv)⟩
  · exact ⟨.r, (exec_rdFreq v s).trans (onVoice_absent hv)⟩
  · exact ⟨.r, (exec_rdOut v i c s).trans (onVoice_absent hv)⟩

/-- Settles O23: the presence check fails, and what it answers is the bus error of the operation's direction. -/
theorem absentVoiceIsBusError : Obligations.AbsentVoiceIsBusError := by
  intro s v n w d i c hv op hop
  have habsent : v.present s.cfg = false := decide_eq_false (Nat.not_lt.mpr hv)
  obtain ⟨dir, hexec⟩ := exec_voiceOp_absent habsent hop
  rw [hexec, busError_eq]
  cases dir with
  | r => exact ⟨_, rfl, .inr rfl⟩
  | w => exact ⟨_, rfl, .inl rfl⟩

/-! ## The statements on encoding -/

/-- Settles O3: what lies at the address the encoder gives is what the bus decoder finds there. -/
theorem encodeThenDecode : Obligations.EncodeThenDecode := fun _ _ hwf => decode_encode hwf

/-- Settles O4: each target fixes the address it was decoded from, and each command form its word. -/
theorem decodeThenEncode : Obligations.DecodeThenEncode := fun _ t hc => encode_decode hc t

/-- Settles O5, target by target: the bus decoder sends every transaction where its address lies. -/
theorem decodeGivesWellFormed : Obligations.DecodeGivesWellFormed := fun _ t hc => decode_wf hc t

/-- Settles O6: a command word decodes to the command whose form it has. -/
theorem commandWordForms : Obligations.CommandWordForms := by
  intro w
  have hfull : w &&& 0xFFFFFFFF#32 = w := BitVec.and_allOnes
  rw [hfull]
  exact ⟨decodeCmd_eq_iff, fun n => decodeCmd_eq_iff.trans eq_vrenderWord_iff, decodeCmd_eq_iff,
    decodeCmd_eq_iff.trans illegalCommand_iff⟩

/-- Settles O1: the decoders, run on the sixteen written-out transactions. -/
theorem writtenWordsDecode : Obligations.WrittenWordsDecode := by
  unfold Obligations.WrittenWordsDecode
  decide

end Sys2Proof.Machine

/-! PROOFS. The statements of 40_host_bus.md: the accesses of the Parameter Set (R182, R184), of the reserved and global
locations (R183, R185 to R187), of a voice block and its buffer (R189 to R195), and the bus error (R180). -/

namespace Sys2Proof

/-- The addresses R183 lists, the last word of each present voice block included, are the reserved ones. -/
theorem reservedAddr_of_listed {c : Config} {n : Nat} (h4 : n % 4 = 0)
    (h : (0x28 ≤ n ∧ n ≤ 0x3C) ∨ (0x68 ≤ n ∧ n ≤ 0x7C) ∨ (0x8C ≤ n ∧ n ≤ 0xBC) ∨ (0xE8 ≤ n ∧ n ≤ 0xEC) ∨
      (0xF8 ≤ n ∧ n ≤ 0xFC) ∨ ∃ v : VoiceId, v.val < c.numVoices ∧ n = 0x10C + 0x10 * v.val) :
    reservedAddr c n = true := by
  simp only [reservedAddr, Bool.and_eq_true, Bool.or_eq_true, decide_eq_true_eq, beq_iff_eq]
  refine ⟨h4, ?_⟩
  rcases h with h | h | h | h | h | ⟨⟨k, hk⟩, hpresent, rfl⟩ <;> omega

/-- The address of offset `o` of a voice block, with the offset added to the block's base first (10_state.md R66). -/
theorem voiceRegAddr_eq (v : VoiceId) (o : Nat) : voiceRegAddr v o = BitVec.ofNat 32 (0x100 + o + 0x10 * v.val) :=
  congrArg (BitVec.ofNat 32) (Nat.add_right_comm _ _ _)

end Sys2Proof

namespace Sys2Proof.Machine

/-- Every legal value of a register fits a 32-bit two's-complement word (10_state.md R43, R44). -/
theorem Param.range_fits_word (p : Param) : -2 ^ 31 ≤ Param.lo p ∧ Param.hi p < 2 ^ 31 := by
  cases p <;> decide

/-! ## The words the status registers read, field by field (R186, R187, R190) -/

theorem gstatusWord_eq (b : Bool) : gstatusWord b = if b = true then 0x00000001#32 else 0x00000000#32 := by
  cases b <;> rfl

theorem ginfoWord_blockFrames (c : Config) : (ginfoWord c).extractLsb' 16 16 = BitVec.ofNat 16 c.blockFrames := by
  unfold ginfoWord
  rw [BitVec.extractLsb'_append_eq_of_le (by decide)]
  exact BitVec.extractLsb'_append_eq_left

theorem ginfoWord_zeros (c : Config) : (ginfoWord c).extractLsb' 8 8 = 0#8 := by
  unfold ginfoWord
  rw [BitVec.extractLsb'_append_eq_of_le (by decide)]
  exact BitVec.extractLsb'_append_eq_right

theorem ginfoWord_numVoices (c : Config) : (ginfoWord c).extractLsb' 0 8 = BitVec.ofNat 8 c.numVoices :=
  BitVec.extractLsb'_append_eq_right

theorem statusWord_alive (x : Voice) : (statusWord x).getLsbD 0 = x.alive := by
  unfold statusWord
  rw [BitVec.getLsbD_append]
  cases x.alive <;> rfl

theorem statusWord_err (x : Voice) : (statusWord x).extractLsb' 8 4 = errBits x.err := by
  unfold statusWord
  rw [BitVec.extractLsb'_append_eq_of_le (by decide), BitVec.extractLsb'_append_eq_of_le (by decide)]
  exact BitVec.extractLsb'_append_eq_right

theorem statusWord_lowZeros (x : Voice) : (statusWord x).extractLsb' 1 7 = 0#7 := by
  unfold statusWord
  rw [BitVec.extractLsb'_append_eq_of_le (by decide)]
  exact BitVec.extractLsb'_append_eq_right

theorem statusWord_highZeros (x : Voice) : (statusWord x).extractLsb' 12 20 = 0#20 := by
  unfold statusWord
  rw [BitVec.extractLsb'_append_eq_of_le (by decide), BitVec.extractLsb'_append_eq_of_le (by decide)]
  exact BitVec.extractLsb'_append_eq_left

/-! ## A word and its four bytes (20_memory.md R104, R108) -/

theorem Mem.readWord_of_bytes {m : Mem} {a : Nat} {w : Word} (h : ∀ j < 4, m.readByte (a + j) = some (byteOf w j)) :
    m.readWord a = some w := by
  have h0 : m.readByte a = some (byteOf w 0) := h 0 (by decide)
  simp only [Mem.readWord, h0, h 1 (by decide), h 2 (by decide), h 3 (by decide), bytes_join]

theorem Mem.readWord_of_missing_byte {m : Mem} {a j : Nat} (hj : j < 4) (h : m.readByte (a + j) = none) :
    m.readWord a = none := by
  unfold Mem.readWord
  split
  · next h0 h1 h2 h3 => interval_cases j <;> simp [h0, h1, h2, h3] at h
  · rfl

/-! ## The operations of a present voice block (R189 to R195) -/

section
variable {s : State} {v : VoiceId} (hv : v.present s.cfg = true)
include hv

theorem exec_rdCmd_present : exec (.rdCmd v) s = .next { s with reply := some 0#32 } :=
  (exec_rdCmd v s).trans (onVoice_present hv)

theorem exec_rdStatus_present : exec (.rdStatus v) s = .next { s with reply := some (statusWord (getVoice s v)) } :=
  (exec_rdStatus v s).trans (onVoice_present hv)

theorem exec_wrStatus_present (d : Word) : exec (.wrStatus v d) s = .next { s with reply := none } :=
  (exec_wrStatus v d s).trans (onVoice_present hv)

theorem exec_wrFreq_present (d : Word) :
    exec (.wrFreq v d) s = .next { setVoice s v { getVoice s v with freq := d } with reply := none } :=
  (exec_wrFreq v d s).trans (onVoice_present hv)

theorem exec_rdFreq_present : exec (.rdFreq v) s = .next { s with reply := some (getVoice s v).freq } :=
  (exec_rdFreq v s).trans (onVoice_present hv)

/-- RD.OUT of a written word (R195). -/
theorem exec_rdOut_of_some {i : BitVec 13} {c : Side} {w : Word} (hi : i.toNat < s.cfg.blockFrames)
    (h : outRead v i.toNat c s.mem = some w) : exec (.rdOut v i c) s = .next { s with reply := some w } := by
  rw [exec_rdOut, execRdOut, onVoice_present hv, if_pos hi, h]
  rfl

/-- RD.OUT of a word no render has written (R108, log entry 11). -/
theorem exec_rdOut_of_none {i : BitVec 13} {c : Side} (hi : i.toNat < s.cfg.blockFrames)
    (h : outRead v i.toNat c s.mem = none) : exec (.rdOut v i c) s = .fault (.unwrittenOutput v i c) := by
  rw [exec_rdOut, execRdOut, onVoice_present hv, if_pos hi, h]

end

/-! ## The statements on the Parameter Set -/

/-- Settles O12: the 33 writes are one, `writeParam`, and a register write is one `Params.set` of the clamped word. -/
theorem paramWriteResult : Obligations.ParamWriteResult := by
  intro p d s
  have hstored : paramStored p d = max (Param.lo p) (min d.toInt (Param.hi p)) :=
    clamp_eq_max_min _ _ _ (Param.lo_le_hi p)
  rw [exec_wrParam, ← hstored]
  exact ⟨_, rfl, Params.get_set_self _ _ _, fun q hq => Params.get_set_of_ne _ _ _ _ hq, rfl, rfl, rfl, rfl, rfl, rfl⟩

/-- Settles O13: the 33 reads are one, `readParam`, and a legal value fits the word it is returned in. -/
theorem paramReadResult : Obligations.ParamReadResult := by
  refine fun p s => ⟨exec_rdParam p s, fun hlegal => ?_⟩
  obtain ⟨hlo, hhi⟩ := hlegal p
  obtain ⟨hmin, hmax⟩ := Param.range_fits_word p
  exact BitVec.toInt_ofInt_eq_self (by decide) (hmin.trans hlo) (hhi.trans_lt hmax)

/-! ## The statements on reserved locations, global registers and the bus error -/

/-- Settles O17: the bounds of R8 let BLOCK_FRAMES and NUM_VOICES fit their fields of the word. -/
theorem ginfoAccess : Obligations.GinfoAccess := by
  intro s d hc
  obtain ⟨hvoices, hblock, -⟩ := Config.wf_bounds hc
  refine ⟨decode_encode (i := .wrGinfo d) rfl, decode_encode (i := .rdGinfo) rfl, rfl, ginfoWord s.cfg, rfl, ?_,
    ginfoWord_zeros _, ?_⟩
  · rw [ginfoWord_blockFrames, BitVec.toNat_ofNat, Nat.mod_eq_of_lt (by omega)]
  · rw [ginfoWord_numVoices, BitVec.toNat_ofNat, Nat.mod_eq_of_lt (by omega)]

/-- Settles O15: at the addresses R183 lists the reserved rows are well-formed, so their transactions decode to them. -/
theorem reservedLocations : Obligations.ReservedLocations := by
  refine ⟨fun c a d h4 h => ?_, fun s a d => ⟨rfl, rfl⟩⟩
  have hrsv : reservedAddr c a.toNat = true := reservedAddr_of_listed h4 h
  exact ⟨decode_encode (i := .wrRsv a d) hrsv, decode_encode (i := .rdRsv a) hrsv⟩

/-- Settles O16: the write's effect on BUSERR and the word read are the model's flag equations. -/
theorem gstatusAccess : Obligations.GstatusAccess := by
  intro s d
  refine ⟨decode_encode (i := .wrGstatus d) rfl, decode_encode (i := .rdGstatus) rfl, rfl, ?_⟩
  rw [exec_rdGstatus, execRdGstatus, gstatusWord_eq]
  rfl

/-- Settles O18: the kinds R180 lists are where the bus decoder finds no target. -/
theorem busErrorEffect : Obligations.BusErrorEffect := fun s _ _ =>
  ⟨fun _ hx => decode_of_isBusError hx, busError_eq .r s, busError_eq .w s⟩

/-! ## The statements on a voice block and its buffer -/

/-- Settles O21: each read runs on the present slot and answers one word of it. -/
theorem voiceRegisterReads : Obligations.VoiceRegisterReads := by
  intro s v hlt
  have hv : v.present s.cfg = true := decide_eq_true hlt
  rw [← voiceRegAddr_eq v 0x0, ← voiceRegAddr_eq v 0x4, ← voiceRegAddr_eq v 0x8]
  exact ⟨decode_encode (i := .rdCmd v) hv, decode_encode (i := .rdStatus v) hv, decode_encode (i := .rdFreq v) hv,
    exec_rdCmd_present hv, exec_rdFreq_present hv, statusWord (getVoice s v), exec_rdStatus_present hv,
    statusWord_alive _, statusWord_lowZeros _, statusWord_err _, statusWord_highZeros _⟩

/-- Settles O22: both writes run on the present slot; FREQ's puts back the slot with the word in it. -/
theorem voiceRegisterWrites : Obligations.VoiceRegisterWrites := by
  intro s v d hlt
  have hv : v.present s.cfg = true := decide_eq_true hlt
  rw [← voiceRegAddr_eq v 0x4, ← voiceRegAddr_eq v 0x8]
  refine ⟨decode_encode (i := .wrStatus v d) hv, decode_encode (i := .wrFreq v d) hv,
    exec_wrStatus_present hv d, _, exec_wrFreq_present hv d, ?_, rfl, getVoice_setVoice_self s v _⟩
  exact { cfg := rfl, params := rfl, busErr := rfl, mem := rfl, inbox := rfl
          voices := fun u hu => getVoice_setVoice_of_ne s v u _ hu }

/-- Settles O24: the read joins the four bytes at R106's address, and has no word when one of them is missing. -/
theorem rdOutReadsStoredWord : Obligations.RdOutReadsStoredWord := by
  intro s v i c hlt hi
  have hv : v.present s.cfg = true := decide_eq_true hlt
  refine ⟨fun w hbytes => exec_rdOut_of_some hv hi (Mem.readWord_of_bytes hbytes), ?_⟩
  rintro ⟨j, hj, hmissing⟩
  exact exec_rdOut_of_none hv hi (Mem.readWord_of_missing_byte hj hmissing)

end Sys2Proof.Machine

/-! PROOFS. The statements of 41_voice_commands.md: VINIT and VFREE (R220, R222), what a render computes and where it
leaves it (R224, R228, R233 to R235, R239), and the steps before its first frame (R225 to R232). -/

namespace Sys2Proof

/-! ## Frequencies and wavelengths (R225, R226) -/

theorem validFreq_iff {f : Word} : validFreq f = true ↔ 0x00000001 ≤ f.toNat ∧ f.toNat ≤ 0x7F7FFFFF := by
  simp [validFreq]

/-- A value above 0 has no sign bit and a magnitude that is not 0. -/
theorem F32.value_pos_iff {x : F32} : 0 < F32.value x ↔ F32.neg? x = false ∧ 0 < F32.mag x := by
  have hzero := F32.units_eq_zero (x := x)
  rw [F32.value]
  split
  · next hneg =>
    simp only [hneg, Bool.true_eq_false, false_and, iff_false]
    omega
  · next hneg =>
    simp only [hneg, true_and]
    omega

/-- The words R225 accepts are those of the finite values above 0. -/
theorem validFreq_iff_value {f : F32} : validFreq f = true ↔ F32.mag f < 0x7F800000 ∧ 0 < F32.value f := by
  have hlt := f.isLt
  rw [validFreq_iff, F32.value_pos_iff, F32.neg?, BitVec.getLsbD, Nat.testBit_eq_decide_div_mod_eq,
    decide_eq_false_iff_not, F32.mag]
  omega

/-- Numeric `≤` of two words without a sign compares their magnitudes in units, an infinity included. -/
theorem F32.le_iff_units {x y : F32} (hx : F32.IsUnsigned x) (hy : F32.IsUnsigned y) :
    F32.le x y = true ↔ F32.units x ≤ F32.units y := by
  obtain ⟨hxnan, hxneg⟩ := hx
  obtain ⟨hynan, hyneg⟩ := hy
  rw [← Nat.not_lt, F32.units_lt_units_iff, F32.le_iff]
  simp [hxnan, hynan, F32.key, hxneg, hyneg]

theorem F32.units_ofNat_two_pow_31 : F32.units (F32.ofNat (2 ^ 31)) = 2 ^ 31 * 2 ^ 149 := by
  decide

/-- A quotient from 2^31 on saturates (R226). -/
theorem wavelength_of_quotient {c : Config} {x q : F32} (hq : F32.div (F32.ofNat c.sampleRate) x = q)
    (hu : F32.IsUnsigned q) :
    wavelength c x = if F32.units q < 2 ^ 31 * 2 ^ 149 then F32.units q / 2 ^ 149 else 2 ^ 31 - 1 := by
  have hle := F32.le_iff_units (F32.isUnsigned_ofNat (2 ^ 31)) hu
  rw [F32.units_ofNat_two_pow_31] at hle
  unfold wavelength
  simp only [hq, hle, ← Nat.not_lt, F32.trunc, ite_not]

/-- float(SAMPLE_RATE) is finite, positive and exact (R8, R15). -/
theorem Config.ofNat_sampleRate {c : Config} (h : c.wf = true) :
    F32.units (F32.ofNat c.sampleRate) = c.sampleRate * 2 ^ 149 ∧ F32.mag (F32.ofNat c.sampleRate) < 0x7F800000 ∧
      F32.mag (F32.ofNat c.sampleRate) ≠ 0 := by
  obtain ⟨hpos, hle⟩ := Config.wf_sampleRate h
  obtain ⟨hunits, hmag⟩ := F32.ofNat_exact hle
  refine ⟨hunits, hmag, ?_⟩
  rw [Ne, ← F32.units_eq_zero, hunits]
  positivity

/-- The wavelength of a valid frequency, by the rounded quotient (R226). -/
theorem wavelength_of_validFreq {c : Config} (hc : c.wf = true) {x : F32} (hx : validFreq x = true) :
    let q := F32.round false (c.sampleRate * 2 ^ 149 * 2 ^ 149) (F32.units x)
    wavelength c x = if F32.units q < 2 ^ 31 * 2 ^ 149 then F32.units q / 2 ^ 149 else 2 ^ 31 - 1 := by
  obtain ⟨hunits, hrate, -⟩ := Config.ofNat_sampleRate hc
  obtain ⟨hmag, hval⟩ := validFreq_iff_value.mp hx
  obtain ⟨hneg, hpos⟩ := F32.value_pos_iff.mp hval
  have hne : F32.units x ≠ 0 := fun h => by have := F32.units_eq_zero.mp h; omega
  refine wavelength_of_quotient ?_ (F32.isUnsigned_round _ _)
  rw [F32.div_of_finite hrate hmag hne, hunits, hneg, F32.ofNat, F32.neg?_round]
  rfl

theorem F32.div_inf {x y : F32} (hx : F32.mag x < 0x7F800000) (hy : F32.mag y = 0x7F800000) :
    F32.div x y = F32.pack (F32.neg? x != F32.neg? y) 0 := by
  have hnan : F32.isNaN y = false := decide_eq_false (by omega)
  have hinf : F32.isInf y = true := decide_eq_true hy
  simp [F32.div, F32.isNaN_of_finite hx, F32.isInf_of_finite hx, hnan, hinf]

theorem F32.div_zero {x y : F32} (hx : F32.mag x < 0x7F800000) (hx0 : F32.mag x ≠ 0) (hy : F32.mag y = 0) :
    F32.div x y = F32.inf (F32.neg? x != F32.neg? y) := by
  have hfin : F32.mag y < 0x7F800000 := by omega
  have hyz : F32.isZero y = true := decide_eq_true hy
  have hxz : F32.isZero x = false := decide_eq_false hx0
  simp [F32.div, F32.isNaN_of_finite, F32.isInf_of_finite, hx, hfin, hyz, hxz]

/-- At +infinity the quotient is +0.0. -/
theorem wavelength_inf {c : Config} (hc : c.wf = true) : wavelength c 0x7F800000#32 = 0 := by
  obtain ⟨-, hrate, -⟩ := Config.ofNat_sampleRate hc
  have hq : F32.div (F32.ofNat c.sampleRate) 0x7F800000#32 = F32.zero := by
    rw [F32.div_inf hrate (by decide), F32.ofNat, F32.neg?_round]
    decide
  rw [wavelength_of_quotient hq ⟨by decide, by decide⟩]
  decide

/-- At +0.0 the quotient is +infinity (log entry 9). -/
theorem wavelength_zero {c : Config} (hc : c.wf = true) : wavelength c 0x00000000#32 = 2 ^ 31 - 1 := by
  obtain ⟨-, hrate, hne⟩ := Config.ofNat_sampleRate hc
  have hq : F32.div (F32.ofNat c.sampleRate) 0x00000000#32 = F32.inf false := by
    rw [F32.div_zero hrate hne (by decide), F32.ofNat, F32.neg?_round]
    decide
  rw [wavelength_of_quotient hq ⟨by decide, by decide⟩]
  decide

namespace Machine

/-! ## The derived quantities (R231, R232) -/

/-- `deriveTone` is R231 and R232, clause by clause. -/
theorem deriveTone_derives (c : Config) (p : ToneParams) : p.Derives c (deriveTone c p) :=
  { duty0 := fun h => congrArg dutyEighths h
    duty1 := fun h => congrArg dutyEighths h
    duty2 := fun h => congrArg dutyEighths h
    duty3 := fun h => congrArg dutyEighths h
    envLen := rfl
    swRate := rfl
    rise := fun h => if_pos h
    fall := fun h => (if_neg (by omega)).trans (if_pos h)
    still := fun h => congrArg remapSweep h }

/-- MASTER_VOL / 16384 needs no rounding: 16384 is a power of 2 (R231, 10_state.md R61). -/
theorem value_masterGain {u : Int} (h0 : 0 ≤ u) (h1 : u ≤ 32768) : F32.value (masterGain u) * 16384 = u * 2 ^ 149 := by
  obtain ⟨hnum, hnumFin⟩ := F32.ofNat_exact (n := u.toNat) (by omega)
  obtain ⟨hden, hdenFin⟩ := F32.ofNat_exact (n := 16384) (by decide)
  have hq : masterGain u = F32.round false (u.toNat * 2 ^ 149 * 2 ^ 149) (16384 * 2 ^ 149) := by
    rw [masterGain, F32.div_of_finite hnumFin hdenFin (by rw [hden]; decide), hnum, hden, F32.ofNat, F32.neg?_round,
      F32.ofNat, F32.neg?_round]
    rfl
  obtain ⟨hunits, -⟩ := F32.round_exact false (n := u.toNat * 2 ^ 149 * 2 ^ 149) (d := 16384 * 2 ^ 149) (m := u.toNat)
    (e := 135) (by decide) (by omega) (by decide) (by ring)
  rw [hq, F32.value, F32.neg?_round, hunits]
  simp only [Bool.false_eq_true, if_false]
  omega

/-- Settles O40: the start field by field, R226's quotient in units, and `derive` clause by clause. -/
theorem renderStartWavelengths : Obligations.RenderStartWavelengths := by
  refine ⟨fun c p f h => ?_, fun f => ⟨validFreq_iff, validFreq_iff_value⟩, fun c hc => ?_, fun c p hp => ?_⟩
  · exact ⟨renderStart_wlen_of_ne c p, renderStart_wlen_of_eq c p, by simp, by simp, renderStart_wlen4 c p f h, by simp⟩
  · exact ⟨fun x hx => wavelength_of_validFreq hc hx, wavelength_inf hc, wavelength_zero hc⟩
  · obtain ⟨hlo, hhi⟩ := hp .masterVol
    exact ⟨deriveTone_derives c p.ch1, deriveTone_derives c p.ch2, rfl, rfl, value_masterGain hlo hhi⟩

/-- Settles O43, by the sign of the amount. -/
theorem sweepAmountRemap : Obligations.SweepAmountRemap := by
  refine ⟨rfl, fun a hlo hhi hne => ?_⟩
  rcases Int.lt_or_gt_of_ne hne with hneg | hpos
  · rw [remapSweep, if_neg (by omega), if_pos hneg]
    omega
  · rw [remapSweep, if_pos hpos]
    omega

/-! ## Channel levels (R233) -/

/-- A volume of 0 to 15 scaled by an envelope value of 0 to 15, over 15, is at most the volume. -/
theorem scaledLevel_le {vol : Int} (envEn : Int) {e : Envelope} (hv : vol ≤ 15) (he : e.val ≤ 15) :
    scaledLevel vol envEn e ≤ 15 := by
  have hvol : vol.toNat ≤ 15 := by omega
  have hmul : vol.toNat * e.val ≤ 15 * 15 := Nat.mul_le_mul hvol he
  unfold scaledLevel
  split
  · omega
  · exact hvol

theorem toneOut_le (c : Config) (maxWlen : Nat) {p : ToneParams} (d : ToneDerived) {t : ToneState} (hv : p.vol ≤ 15)
    (ht : t.env.val ≤ 15) : toneOut c maxWlen p d t ≤ 15 := by
  unfold toneOut
  split
  · exact scaledLevel_le _ hv ht
  · exact Nat.zero_le _

theorem toneOut_of_disabled (c : Config) (maxWlen : Nat) {p : ToneParams} (d : ToneDerived) (t : ToneState)
    (h : p.en = 0) : toneOut c maxWlen p d t = 0 :=
  if_neg fun ⟨hen, _⟩ => by omega

theorem noiseOut_le {p : NoiseParams} {n : NoiseState} (hv : p.vol ≤ 15) (hn : n.env.val ≤ 15) : noiseOut p n ≤ 15 := by
  unfold noiseOut
  split
  · exact scaledLevel_le _ hv hn
  · exact Nat.zero_le _

theorem noiseOut_of_disabled {p : NoiseParams} (n : NoiseState) (h : p.en = 0) : noiseOut p n = 0 :=
  if_neg fun ⟨hen, _⟩ => by omega

/-- An entry of a legal TRI_TABLE, or 0 beyond its end, is at most 15 (R8). -/
theorem triAt_le {c : Config} (hc : c.wf = true) (i : Nat) : c.triAt i ≤ 15 := by
  have htable : ∀ t ∈ c.triTable.toList, t ≤ 15 := by
    simp only [Config.wf, Bool.and_eq_true, List.all_eq_true, decide_eq_true_eq, and_assoc] at hc
    obtain ⟨-, -, -, -, -, -, -, -, -, -, -, -, -, htable, -⟩ := hc
    exact htable
  unfold Config.triAt Vector.getD Array.getD
  split
  · exact htable _ (by simp)
  · exact Nat.zero_le _

theorem triLevel_le {c : Config} (hc : c.wf = true) (maxWlen : Nat) {p : TriParams} (w : Nat) (phase : BitVec 32)
    (hv : p.vol ≤ 15) : triLevel c maxWlen p w phase ≤ 15 := by
  unfold triLevel
  split
  · have hmul : c.triAt (phase.toNat * 32 / w) * p.vol.toNat ≤ 15 * 15 :=
      Nat.mul_le_mul (triAt_le hc _) (by omega)
    omega
  · exact Nat.zero_le _

theorem triLevel_of_disabled (c : Config) (maxWlen : Nat) {p : TriParams} (w : Nat) (phase : BitVec 32)
    (h : p.en = 0) : triLevel c maxWlen p w phase = 0 :=
  if_neg fun ⟨hen, _⟩ => by omega

/-- Settles O47: the legal volumes bound every level, and each level tests its channel's enable. -/
theorem channelLevels : Obligations.ChannelLevels := by
  intro c maxWlen ps d t w phase n hc hlegal ht hn
  obtain ⟨-, hv1⟩ := hlegal .ch1Vol
  obtain ⟨-, hv2⟩ := hlegal .ch2Vol
  obtain ⟨-, hv3⟩ := hlegal .ch3Vol
  obtain ⟨-, hv4⟩ := hlegal .ch4Vol
  exact ⟨toneOut_le c maxWlen d hv1 ht, toneOut_le c maxWlen d hv2 ht, triLevel_le hc maxWlen w _ hv3,
    noiseOut_le hv4 hn, toneOut_of_disabled c maxWlen d t, toneOut_of_disabled c maxWlen d t,
    triLevel_of_disabled c maxWlen w _, noiseOut_of_disabled n⟩

/-! ## Counters (R234) -/

/-- Two hidden states that agree on every oscillator, sweep, envelope and LFSR field, and on V.maxWlen, against which
the sweeps are checked. -/
structure VoiceState.SameCounters (h h' : VoiceState) : Prop where
  maxWlen : h'.maxWlen = h.maxWlen
  ch1 : h'.ch1 = h.ch1
  ch2 : h'.ch2 = h.ch2
  wlen3 : h'.wlen3 = h.wlen3
  phase3 : h'.phase3 = h.phase3
  noise : h'.noise = h.noise

/-- Two Parameter Sets that agree on every register the counters read: sweep enables, loop flags, the noise mode. -/
structure Params.SameForCounters (p q : Params) : Prop where
  sweepEn1 : q.ch1.sweepEn = p.ch1.sweepEn
  envLoop1 : q.ch1.envLoop = p.ch1.envLoop
  sweepEn2 : q.ch2.sweepEn = p.ch2.sweepEn
  envLoop2 : q.ch2.envLoop = p.ch2.envLoop
  envLoop4 : q.ch4.envLoop = p.ch4.envLoop
  noiseMode : q.ch4.noiseMode = p.ch4.noiseMode

theorem toneNext_congr (c : Config) (maxWlen : Nat) (ch : ToneCh) {p q : ToneParams} (d : ToneDerived) (t : ToneState)
    (hs : q.sweepEn = p.sweepEn) (hl : q.envLoop = p.envLoop) :
    toneNext c maxWlen ch q d t = toneNext c maxWlen ch p d t := by
  simp only [toneNext, sweepStep, hs, hl]

theorem noiseNext_congr {p q : NoiseParams} (len : Nat) (n : NoiseState) (hl : q.envLoop = p.envLoop)
    (hm : q.noiseMode = p.noiseMode) : noiseNext q len n = noiseNext p len n := by
  simp only [noiseNext, hl, hm]

theorem frame_phase3 (c : Config) (p : Params) (d : Derived) (x y : F32) (h : VoiceState) :
    (frame c p d x y h).phase3 = triWrap h.wlen3 h.phase3 + 1#32 := rfl

/-- A frame's counters come from counters alone: not from levels, filter memories or draws. -/
theorem frame_sameCounters (c : Config) {p q : Params} (hq : p.SameForCounters q) (d : Derived) (x y x' y' : F32)
    {h h' : VoiceState} (hh : h.SameCounters h') : (frame c p d x y h).SameCounters (frame c q d x' y' h') :=
  { maxWlen := hh.maxWlen
    ch1 := by rw [frame_ch1, frame_ch1, hh.maxWlen, hh.ch1, toneNext_congr _ _ _ _ _ hq.sweepEn1 hq.envLoop1]
    ch2 := by rw [frame_ch2, frame_ch2, hh.maxWlen, hh.ch2, toneNext_congr _ _ _ _ _ hq.sweepEn2 hq.envLoop2]
    wlen3 := hh.wlen3
    phase3 := by rw [frame_phase3, frame_phase3, hh.wlen3, hh.phase3]
    noise := by rw [frame_noise, frame_noise, hh.noise, noiseNext_congr _ _ hq.envLoop4 hq.noiseMode] }

theorem renderFrames_sameCounters (c : Config) {p q : Params} (hq : p.SameForCounters q) (d : Derived) (v : VoiceId)
    (n i : Nat) {r r' : RenderState} (hr : r.hid.SameCounters r'.hid) :
    (renderFrames c p d v n i r).hid.SameCounters (renderFrames c q d v n i r').hid := by
  induction n generalizing i r r' with
  | zero => exact hr
  | succ n ih => exact ih (i + 1) (frame_sameCounters c hq d _ _ _ _ hr)

/-- Settles O37: the registers that differ are none the counters read. -/
theorem countersIgnoreEnables : Obligations.CountersIgnoreEnables := by
  intro c p d v n h f f' m e1 e2 e3 e4 v1 v2 v4
  obtain ⟨-, h1, h2, hw3, hp3, hnoise⟩ := renderFrames_sameCounters c (p := p)
    (q := { p with ch1 := { p.ch1 with en := e1, envEn := v1 }, ch2 := { p.ch2 with en := e2, envEn := v2 },
                   ch3 := { p.ch3 with en := e3 }, ch4 := { p.ch4 with en := e4, envEn := v4 } })
    ⟨rfl, rfl, rfl, rfl, rfl, rfl⟩ d v n 0 (r := ⟨h, f, m⟩) (r' := ⟨h, f', m⟩) ⟨rfl, rfl, rfl, rfl, rfl, rfl⟩
  simp only [VoiceState.noise, NoiseState.mk.injEq] at hnoise
  obtain ⟨hw4, hp4, hl, he4⟩ := hnoise
  exact ⟨h1, h2, hw3, hp3, hw4, hp4, he4, hl⟩

/-! ## VINIT and VFREE (R220, R222) -/

/-- Putting a voice in a slot, and completing, leaves everything outside the slot as it was. -/
theorem sameButVoice_setVoice (s : State) (v : VoiceId) (x : Voice) (r : Option Word) (k : Nat) :
    State.SameButVoice v s { setVoice s v x with reply := r, freeSerial := k } :=
  { cfg := rfl, params := rfl, busErr := rfl, mem := rfl, inbox := rfl
    voices := fun u hu => getVoice_setVoice_of_ne s v u x hu }

theorem exec_vinit_present {s : State} {v : VoiceId} (hv : v.present s.cfg = true) :
    exec (.vinit v) s =
      .next { setVoice s v { getVoice s v with alive := true, err := .none, hid := VoiceState.init s.cfg } with
        reply := none } :=
  (exec_vinit v s).trans (onVoice_present hv)

theorem exec_vfree_alive {s : State} {v : VoiceId} (hv : v.present s.cfg = true) (ha : (getVoice s v).alive = true) :
    exec (.vfree v) s =
      .next { setVoice s v { getVoice s v with alive := false, hid := VoiceState.free s.freeSerial } with
        reply := none, freeSerial := s.freeSerial + 1 } := by
  rw [exec_vfree, execVfree, onVoice_present hv, if_pos ha]
  rfl

theorem exec_vfree_dead {s : State} {v : VoiceId} (hv : v.present s.cfg = true) (ha : (getVoice s v).alive = false) :
    exec (.vfree v) s = .next { s with reply := none } := by
  rw [exec_vfree, execVfree, onVoice_present hv, if_neg (by simp [ha])]
  rfl

/-- Settles O26: VINIT puts `VoiceState.init` in the slot, and R220's values are its fields. -/
theorem vinitResult : Obligations.VinitResult := by
  intro s v hlt
  have hv : v.present s.cfg = true := decide_eq_true hlt
  rw [← voiceRegAddr_eq v 0x0]
  exact ⟨decode_encode (i := .vinit v) hv, _, exec_vinit_present hv, sameButVoice_setVoice s v _ _ _, rfl,
    getVoice_setVoice_self s v _⟩

/-- Settles O27, alive and dead. -/
theorem vfreeResult : Obligations.VfreeResult := by
  intro s v hlt
  have hv : v.present s.cfg = true := decide_eq_true hlt
  rw [← voiceRegAddr_eq v 0x0]
  refine ⟨decode_encode (i := .vfree v) hv, fun ha => ?_, exec_vfree_dead hv⟩
  refine ⟨_, exec_vfree_alive hv ha, sameButVoice_setVoice s v _ _ _, rfl, ?_⟩
  simp

/-! ## The frames of a render (R224, R228, R233) -/

theorem afterFrames_zero_hid (s : State) (v : VoiceId) :
    (afterFrames s v 0).hid = renderStart s.cfg s.params (getVoice s v).freq (getVoice s v).hid := rfl

theorem afterFrames_zero_feed (s : State) (v : VoiceId) : (afterFrames s v 0).feed = (getVoice s v).feed := rfl

theorem afterFrames_succ (s : State) (v : VoiceId) (k : Nat) :
    afterFrames s v (k + 1) = renderFrame s.cfg s.params (derive s.cfg s.params) v k (afterFrames s v k) := by
  rw [afterFrames, renderFrames_last, Nat.zero_add]
  rfl

/-- The state a render of `n` frames leaves. -/
def renderedState (s : State) (v : VoiceId) (n : Nat) : State :=
  { setVoice s v { getVoice s v with hid := (afterFrames s v n).hid, feed := (afterFrames s v n).feed } with
    mem := (afterFrames s v n).mem, reply := none }

theorem exec_vrender_renderedState {s : State} {v : VoiceId} {n : BitVec 16} (h : s.Renders v n) :
    exec (.vrender v n) s = .next (renderedState s v n.toNat) := exec_vrender_of_renders h

@[simp] theorem getVoice_renderedState_self (s : State) (v : VoiceId) (n : Nat) :
    getVoice (renderedState s v n) v =
      { getVoice s v with hid := (afterFrames s v n).hid, feed := (afterFrames s v n).feed } :=
  getVoice_setVoice_self s v _

theorem getVoice_renderedState_of_ne (s : State) {v u : VoiceId} (n : Nat) (h : u ≠ v) :
    getVoice (renderedState s v n) u = getVoice s u := getVoice_setVoice_of_ne s v u _ h

@[simp] theorem renderedState_cfg (s : State) (v : VoiceId) (n : Nat) : (renderedState s v n).cfg = s.cfg := rfl
@[simp] theorem renderedState_params (s : State) (v : VoiceId) (n : Nat) : (renderedState s v n).params = s.params := rfl
@[simp] theorem renderedState_mem (s : State) (v : VoiceId) (n : Nat) :
    (renderedState s v n).mem = (afterFrames s v n).mem := rfl

theorem State.Renders.count_le {s : State} {v : VoiceId} {n : BitVec 16} (h : s.Renders v n) : n.toNat ≤ 8192 := by
  obtain ⟨-, hblock, -⟩ := Config.wf_bounds h.cfgOk
  exact h.fits.trans hblock

/-- Each word of frame `k` of a render is V.yPrev as it stands after `k + 1` frames (45_mixer_dac.md R374). -/
theorem outRead_afterFrames {s : State} (hm : s.mem.wf = true) (v : VoiceId) {n k : Nat} (c : Side) (hn : n ≤ 8192)
    (hk : k < n) : outRead v k c (afterFrames s v n).mem = some (afterFrames s v (k + 1)).hid.yPrev := by
  have h := renderFrames_outRead s.cfg s.params (derive s.cfg s.params) v n 0 k c
    { hid := renderStart s.cfg s.params (getVoice s v).freq (getVoice s v).hid, feed := (getVoice s v).feed, mem := s.mem }
    hm (by omega) hk
  rwa [Nat.zero_add] at h

/-- Settles O30: the words of memory by frame, and the bytes outside the frames by R106's address. -/
theorem vrenderCompletes : Obligations.VrenderCompletes := by
  intro s v n h
  have hpos := h.pos
  have hframe : ∀ k, k < n.toNat → ∀ c : Side,
      outRead v k c (afterFrames s v n.toNat).mem = some (afterFrames s v (k + 1)).hid.yPrev :=
    fun k hk c => outRead_afterFrames h.memWf v c h.count_le hk
  refine ⟨_, exec_vrender_renderedState h, rfl, rfl, rfl, rfl, rfl, fun u hu => getVoice_renderedState_of_ne s _ hu,
    ?_, ?_, ?_, fun b hb => ?_, fun k hk => ⟨_, hframe k hk .left, hframe k hk .right⟩, ?_⟩
  · rw [getVoice_renderedState_self]
    exact h.alive
  · rw [getVoice_renderedState_self]
  · rw [getVoice_renderedState_self]
  · refine renderFrames_readByte _ _ _ v n.toNat 0 b _ h.memWf ?_
    simp only [outAddr, Side.num]
    omega
  · rw [getVoice_renderedState_self, renderedState_mem, hframe (n.toNat - 1) (by omega) .left, Nat.sub_add_cancel hpos]

/-- Settles O31: the render is the frame loop from `renderStart`, and one frame more is `renderFrame`. -/
theorem renderFramesInOrder : Obligations.RenderFramesInOrder := by
  intro s v n h
  refine ⟨_, exec_vrender_renderedState h, ?_, ?_, fun k hk c => outRead_afterFrames h.memWf v c h.count_le hk,
    afterFrames_zero_hid s v, afterFrames_zero_feed s v, fun k => ?_⟩
  · rw [getVoice_renderedState_self]
  · rw [getVoice_renderedState_self]
  · simp only [afterFrames_succ, renderFrame, frame, VoiceState.noise, VoiceState.mix, and_self]

/-! ## Splitting a render (R239) -/

/-- No frame changes the cached pitch or channel 4's wavelength. -/
theorem renderFrames_pitch (c : Config) (p : Params) (d : Derived) (v : VoiceId) (n i : Nat) (r : RenderState) :
    (renderFrames c p d v n i r).hid.cachedFreq = r.hid.cachedFreq ∧
      (renderFrames c p d v n i r).hid.wlen4 = r.hid.wlen4 :=
  renderFrames_hid_induct (I := fun h => h.cachedFreq = r.hid.cachedFreq ∧ h.wlen4 = r.hid.wlen4)
    (fun _ _ _ hh => hh) n i r ⟨rfl, rfl⟩

/-- After any number of frames the voice is still at the pitch and noise wavelength the render started with. -/
theorem afterFrames_pitch (s : State) (v : VoiceId) (n : Nat) :
    (afterFrames s v n).hid.cachedFreq = (getVoice s v).freq ∧
      (afterFrames s v n).hid.wlen4 = noiseWlen s.cfg s.params.ch4 (getVoice s v).freq := by
  obtain ⟨hfreq, hwlen⟩ := renderFrames_pitch s.cfg s.params (derive s.cfg s.params) v n 0 (afterFrames s v 0)
  exact ⟨hfreq.trans (renderStart_cachedFreq _ _ _ _), hwlen.trans (renderStart_wlen4 _ _ _ _)⟩

/-- A render that follows one at the same FREQ goes on where the first stopped: its start changes nothing. -/
theorem afterFrames_renderedState (s : State) (v : VoiceId) (a k : Nat) :
    (afterFrames (renderedState s v a) v k).hid = (afterFrames s v (a + k)).hid ∧
      (afterFrames (renderedState s v a) v k).feed = (afterFrames s v (a + k)).feed := by
  obtain ⟨hfreq, hwlen⟩ := afterFrames_pitch s v a
  have hstart := renderStart_of_current s.cfg s.params hfreq hwlen
  rw [afterFrames, afterFrames, renderFrames_add, getVoice_renderedState_self, renderedState_cfg, renderedState_params,
    hstart]
  exact renderFrames_congr _ _ _ v k 0 (0 + a) rfl rfl

/-- What VRENDER checks is as it was after a render. -/
theorem renders_renderedState {s : State} {v : VoiceId} {b : BitVec 16} (n : Nat) (h : s.Renders v b) :
    (renderedState s v n).Renders v b :=
  { cfgOk := h.cfgOk
    memWf := renderFrames_wf _ _ _ v n 0 _ h.memWf
    present := h.present
    alive := by rw [getVoice_renderedState_self]; exact h.alive
    pos := h.pos
    fits := h.fits
    freq := by rw [getVoice_renderedState_self]; exact h.freq }

/-- Settles O32: the second render goes on where the first stopped, so each frame is the same frame of one render. -/
theorem splitRender : Obligations.SplitRender := by
  intro s v a b ha hb hab
  obtain ⟨-, hblock, -⟩ := Config.wf_bounds ha.cfgOk
  have hpos := ha.pos
  have hsum : (a + b).toNat = a.toNat + b.toNat := by
    rw [BitVec.toNat_add, Nat.mod_eq_of_lt (by omega)]
  have hboth : s.Renders v (a + b) := { ha with pos := by omega, fits := by omega }
  have hthen := renders_renderedState a.toNat hb
  have hle : a.toNat + b.toNat ≤ 8192 := hab.trans hblock
  refine ⟨_, _, _, exec_vrender_renderedState ha, exec_vrender_renderedState hthen, exec_vrender_renderedState hboth, ?_,
    fun k hk c => ?_, fun k hk c => ?_⟩
  · obtain ⟨hhid, hfeed⟩ := afterFrames_renderedState s v a.toNat b.toNat
    rw [getVoice_renderedState_self, getVoice_renderedState_self, hhid, hfeed, hsum, getVoice_renderedState_self]
  · rw [renderedState_mem, renderedState_mem, hsum, outRead_afterFrames ha.memWf v c hle (by omega),
      outRead_afterFrames ha.memWf v c ha.count_le hk]
  · obtain ⟨hhid, -⟩ := afterFrames_renderedState s v a.toNat (k + 1)
    rw [renderedState_mem, renderedState_mem, hsum, outRead_afterFrames ha.memWf v c hle (by omega),
      outRead_afterFrames hthen.memWf v c hb.count_le hk, hhid, Nat.add_assoc]

end Machine

end Sys2Proof

/-! PROOFS. The statements of 42_tone_channels.md: the envelope (R275, R276), the sweep (R265 to R270), and a tone
channel's frame (R260 to R263, R271). -/

namespace Sys2Proof.Machine

/-! ## The envelope (R275, R276) -/

theorem envelopeStep_of_lt (loop : Int) {len : Nat} {e : Envelope} (h : e.ctr + 1 < len) :
    envelopeStep loop len e = { ctr := e.ctr + 1, val := e.val } :=
  if_neg (Nat.not_le.2 h)

theorem envelopeStep_of_le (loop : Int) {len : Nat} {e : Envelope} (h : len ≤ e.ctr + 1) :
    envelopeStep loop len e = { ctr := 0, val := envNext loop e.val } :=
  if_pos h

/-- At a constant length from counter 0, an envelope event ends every `len` frames. -/
theorem envelopeStep_iterate (loop : Int) {len : Nat} (hlen : 1 ≤ len) (v k : Nat) :
    (envelopeStep loop len)^[k] { ctr := 0, val := v } = { ctr := k % len, val := (envNext loop)^[k / len] v } := by
  induction k with
  | zero => simp
  | succ k ih =>
    rw [Function.iterate_succ_apply', ih]
    have hlt : k % len < len := Nat.mod_lt k hlen
    have hsplit : len * (k / len) + k % len = k := Nat.div_add_mod k len
    rcases Nat.lt_or_ge (k % len + 1) len with hcount | hevent
    · obtain ⟨hdiv, hmod⟩ := (Nat.div_mod_unique (a := k + 1) (c := k % len + 1) (d := k / len) hlen).2
        ⟨by omega, hcount⟩
      rw [envelopeStep_of_lt loop hcount, hdiv, hmod]
    · obtain ⟨hdiv, hmod⟩ := (Nat.div_mod_unique (a := k + 1) (c := 0) (d := k / len + 1) hlen).2
        ⟨by rw [Nat.mul_succ]; omega, hlen⟩
      rw [envelopeStep_of_le loop hevent, hdiv, hmod, Function.iterate_succ_apply']

theorem envNext_held (v : Nat) : envNext 0 v = v - 1 := by
  cases v <;> rfl

theorem envNext_looped (v : Nat) : envNext 1 v = if v = 0 then 15 else v - 1 := rfl

/-- Without a loop the value falls to 0 and is held there. -/
theorem envNext_iterate_held (n : Nat) : (envNext 0)^[n] 15 = 15 - n := by
  induction n with
  | zero => rfl
  | succ n ih => rw [Function.iterate_succ_apply', ih, envNext_held, Nat.sub_sub]

/-- In a loop the value goes round 15 to 0. -/
theorem envNext_iterate_looped (n : Nat) : (envNext 1)^[n] 15 = 15 - n % 16 := by
  induction n with
  | zero => rfl
  | succ n ih =>
    rw [Function.iterate_succ_apply', ih, envNext_looped]
    split <;> omega

/-- Settles O41: after `k` frames there have been `k / len` envelope events. -/
theorem envelopeSequences : Obligations.EnvelopeSequences := by
  refine ⟨fun loop len e => ⟨envelopeStep_of_lt loop, envelopeStep_of_le loop⟩, fun len hlen k => ?_⟩
  rw [envelopeStep_iterate 0 hlen, envelopeStep_iterate 1 hlen]
  exact ⟨envNext_iterate_held _, envNext_iterate_looped _⟩

/-! ## The sweep (R265 to R268) -/

theorem inRange_iff {c : Config} {maxWlen w : Nat} : inRange c maxWlen w = true ↔ c.minWlen ≤ w ∧ w ≤ maxWlen := by
  rw [inRange, Bool.and_eq_true, decide_eq_true_eq, decide_eq_true_eq]

/-- R267 on channel 1; a wavelength of at least 1 leaves room for the extra step. -/
theorem sweptWlen_one {amt : Int} {w : Nat} (ha : 0 < amt) (hw : 1 ≤ w) :
    sweptWlen .one amt w + w / 2 ^ amt.natAbs + 1 = w := by
  have hlt : w / 2 ^ amt.natAbs < w := Nat.div_lt_self hw (Nat.one_lt_two_pow (by omega))
  rw [sweptWlen, if_pos ha]
  omega

/-- R267 on channel 2. -/
theorem sweptWlen_two {amt : Int} (w : Nat) (ha : 0 < amt) : sweptWlen .two amt w + w / 2 ^ amt.natAbs = w := by
  rw [sweptWlen, if_pos ha]
  exact Nat.sub_add_cancel (Nat.div_le_self w _)

/-- R268, on both channels. -/
theorem sweptWlen_of_neg (ch : ToneCh) {amt : Int} (w : Nat) (ha : amt < 0) :
    sweptWlen ch amt w = w + w / 2 ^ amt.natAbs :=
  if_neg (by omega)

/-- What a sweep event needs to change the wavelength (R265, R266, R270). -/
def Sweeps (c : Config) (maxWlen : Nat) (p : ToneParams) (d : ToneDerived) (t : ToneState) : Prop :=
  p.sweepEn = 1 ∧ (c.minWlen ≤ t.wlen ∧ t.wlen ≤ maxWlen) ∧ d.swAmt ≠ 0

section
variable {c : Config} {maxWlen : Nat} {ch : ToneCh} {p : ToneParams} {d : ToneDerived} {t : ToneState}

@[simp] theorem sweepStep_phase : (sweepStep c maxWlen ch p d t).phase = t.phase := by
  unfold sweepStep
  split <;> rfl

@[simp] theorem sweepStep_env : (sweepStep c maxWlen ch p d t).env = t.env := by
  unfold sweepStep
  split <;> rfl

theorem sweepStep_of_lt (h : t.sweepCtr + 1 < d.swRate) :
    sweepStep c maxWlen ch p d t = { t with sweepCtr := t.sweepCtr + 1 } :=
  if_neg (Nat.not_le.2 h)

theorem sweepStep_sweepCtr_of_le (h : d.swRate ≤ t.sweepCtr + 1) : (sweepStep c maxWlen ch p d t).sweepCtr = 0 := by
  rw [sweepStep, if_pos h]

theorem sweepStep_wlen_of_sweeps (h : d.swRate ≤ t.sweepCtr + 1) (hs : Sweeps c maxWlen p d t) :
    (sweepStep c maxWlen ch p d t).wlen = sweptWlen ch d.swAmt t.wlen := by
  obtain ⟨hen, hrange, hamt⟩ := hs
  rw [sweepStep, if_pos h]
  exact if_pos ⟨hen, inRange_iff.2 hrange, hamt⟩

/-- Without those conditions the wavelength stays, at an event and between events. -/
theorem sweepStep_wlen_of_not_sweeps (hs : ¬ Sweeps c maxWlen p d t) : (sweepStep c maxWlen ch p d t).wlen = t.wlen := by
  unfold sweepStep
  split
  · exact if_neg fun ⟨hen, hrange, hamt⟩ => hs ⟨hen, inRange_iff.1 hrange, hamt⟩
  · rfl

end

/-- Settles O42: an event sweeps the wavelength by R267 or R268, or leaves it. -/
theorem sweepEvents : Obligations.SweepEvents := by
  intro c maxWlen ch p d t hc r s
  obtain ⟨-, -, hmin⟩ := Config.wf_bounds hc
  have hmoves : 0 < t.wlen / 2 ^ s ↔ 2 ^ s ≤ t.wlen := by
    rw [Nat.div_pos_iff]
    exact and_iff_right (Nat.two_pow_pos s)
  refine ⟨sweepStep_phase, sweepStep_env, fun hcount => ?_, fun hevent => ⟨sweepStep_sweepCtr_of_le hevent, fun hstill => ?_,
    fun hen hlo hhi => ?_⟩⟩
  · simp only [r, sweepStep_of_lt hcount, and_self]
  · refine sweepStep_wlen_of_not_sweeps fun ⟨hen, ⟨hlo, hhi⟩, hamt⟩ => ?_
    rcases hstill with h | h | h | h
    · exact h hen
    · exact hamt h
    · omega
    · omega
  · have hswept : d.swAmt ≠ 0 → r.wlen = sweptWlen ch d.swAmt t.wlen := fun hamt =>
      sweepStep_wlen_of_sweeps hevent ⟨hen, ⟨hlo, hhi⟩, hamt⟩
    refine ⟨fun hpos hch => ?_, fun hpos hch => ?_, fun hneg => ?_⟩
    · rw [hswept hpos.ne', hch]
      exact sweptWlen_one hpos (hmin.trans hlo)
    · have hsum : r.wlen + t.wlen / 2 ^ s = t.wlen := by
        rw [hswept hpos.ne', hch]
        exact sweptWlen_two t.wlen hpos
      exact ⟨hsum, by omega⟩
    · have hsum : r.wlen = t.wlen + t.wlen / 2 ^ s := (hswept hneg.ne).trans (sweptWlen_of_neg ch t.wlen hneg)
      exact ⟨hsum, by omega, hswept hneg.ne ▸ sweptWlen_le ch hneg.ne hhi⟩

/-! ## A wavelength out of range (R270, R237) -/

/-- Settles O44, frame by frame: a wavelength out of range neither sweeps nor sounds. -/
theorem outOfRangeToneStaysSilent : Obligations.OutOfRangeToneStaysSilent := by
  intro c maxWlen ch p d t hout k
  have hwlen : ((toneNext c maxWlen ch p d)^[k] t).wlen = t.wlen := by
    induction k with
    | zero => rfl
    | succ k ih =>
      rw [Function.iterate_succ_apply', toneNext_wlen, sweepStep_wlen_of_not_sweeps, ih]
      rintro ⟨-, ⟨hlo, hhi⟩, -⟩
      omega
  refine ⟨hwlen, if_neg ?_⟩
  rintro ⟨-, hrange, -⟩
  rw [hwlen, inRange_iff] at hrange
  omega

/-! ## A tone channel's frame (R260 to R263, R271) -/

/-- The duty test is a bound on the phase alone (R262). -/
theorem dutyOn_iff_lt {w phase d8 : Nat} : dutyOn w phase d8 = true ↔ phase < w * d8 / 8 + 1 := by
  rw [dutyOn, decide_eq_true_eq]
  omega

/-- Over one full period the phases that are on are those below the bound. -/
theorem filter_dutyOn_range (w d8 : Nat) :
    (List.range w).filter (fun phase => dutyOn w phase d8) = List.range (min w (w * d8 / 8 + 1)) := by
  have hbound : (fun phase => dutyOn w phase d8) = fun phase => decide (phase < w * d8 / 8 + 1) :=
    funext fun phase => Bool.eq_iff_iff.2 (dutyOn_iff_lt.trans decide_eq_true_iff.symm)
  rw [hbound, ← List.Ico.zero_bot, List.Ico.filter_lt, List.Ico.zero_bot]

theorem toneNext_phase (c : Config) (maxWlen : Nat) (ch : ToneCh) (p : ToneParams) (d : ToneDerived) (t : ToneState) :
    (toneNext c maxWlen ch p d t).phase = phaseNext (toneNext c maxWlen ch p d t).wlen t.phase :=
  congrArg (phaseNext (sweepStep c maxWlen ch p d t).wlen) sweepStep_phase

theorem toneOut_eq (c : Config) (maxWlen : Nat) (p : ToneParams) (d : ToneDerived) (t : ToneState) :
    toneOut c maxWlen p d t =
      if p.en = 1 ∧ c.minWlen ≤ t.wlen ∧ t.wlen ≤ maxWlen ∧ 8 * t.phase ≤ t.wlen * d.d8 then
        scaledLevel p.vol p.envEn t.env
      else 0 := by
  simp only [toneOut, inRange_iff, dutyOn, decide_eq_true_eq, and_assoc]

/-- Settles O45: the level and the state field by field, and the duty count as the length of an initial segment. -/
theorem toneLevelAndDuty : Obligations.ToneLevelAndDuty := by
  refine ⟨fun c maxWlen ch p d t => ?_, fun w d8 => ?_⟩
  · have hphase := toneNext_phase c maxWlen ch p d t
    exact ⟨toneOut_eq c maxWlen p d t, toneNext_wlen .., toneNext_sweepCtr .., fun hpos => hphase.trans (if_pos hpos),
      fun hzero => hphase.trans (if_neg hzero.not_gt), toneNext_env ..⟩
  · rw [filter_dutyOn_range, List.length_range]

end Sys2Proof.Machine

/-! PROOFS. The statement of 43_triangle.md: the wrap (R311), the level and its table index (R312, R315), and the phase
advance (R313). -/

namespace Sys2Proof.Machine

/-- R311: the wrapped phase fits 32 bits, being at most the phase. -/
theorem triWrap_toNat (w : Nat) (phase : BitVec 32) :
    (triWrap w phase).toNat = if w = 0 then phase.toNat else phase.toNat % w := by
  rcases Nat.eq_zero_or_pos w with hzero | hpos
  · rw [if_pos hzero, triWrap, if_neg hzero.not_gt]
  · rw [if_neg hpos.ne', triWrap, if_pos hpos, BitVec.toNat_ofNat]
    exact Nat.mod_eq_of_lt ((Nat.mod_le _ w).trans_lt phase.isLt)

/-- A phase below the wavelength has its index inside the 32 entries (R311). -/
theorem triIndex_lt {w ph : Nat} (h : ph < w) : ph * 32 / w < 32 :=
  Nat.div_lt_of_lt_mul (Nat.mul_lt_mul_of_pos_right h (by decide))

/-- The phases that entry `j` serves (R315). -/
theorem triIndex_eq_iff {w : Nat} (hw : 0 < w) (ph j : Nat) :
    ph * 32 / w = j ↔ j * w ≤ 32 * ph ∧ 32 * ph < (j + 1) * w := by
  rw [Nat.mul_comm ph, Nat.div_eq_iff hw, Nat.le_sub_one_iff_lt (by omega), Nat.succ_mul j]

theorem triLevel_of_sounding {c : Config} {maxWlen : Nat} {p : TriParams} {w : Nat} (phase : BitVec 32) (hen : p.en = 1)
    (hlo : c.minWlen ≤ w) (hhi : w ≤ maxWlen) :
    triLevel c maxWlen p w phase = c.triAt (phase.toNat * 32 / w) * p.vol.toNat / 15 :=
  if_pos ⟨hen, inRange_iff.2 ⟨hlo, hhi⟩⟩

theorem triLevel_of_silent {c : Config} {maxWlen : Nat} {p : TriParams} {w : Nat} (phase : BitVec 32)
    (h : p.en ≠ 1 ∨ w < c.minWlen ∨ maxWlen < w) : triLevel c maxWlen p w phase = 0 := by
  refine if_neg fun ⟨hen, hrange⟩ => ?_
  obtain ⟨hlo, hhi⟩ := inRange_iff.1 hrange
  omega

/-- Settles O46: a legal configuration has MIN_WLEN of at least 1, so in range the phase is reduced below `w`. -/
theorem triangleIndex : Obligations.TriangleIndex := by
  intro c maxWlen p w phase hc ph r
  obtain ⟨-, -, hmin⟩ := Config.wf_bounds hc
  have hwrap : (triWrap w phase).toNat = ph := triWrap_toNat w phase
  refine ⟨hwrap, ?_, fun hlo hhi => ?_, triLevel_of_silent _⟩
  · rw [← hwrap]
    exact BitVec.toNat_add ..
  · have hpos : 0 < w := hmin.trans hlo
    have hlt : ph < w := (if_neg hpos.ne').trans_lt (Nat.mod_lt _ hpos)
    exact ⟨triIndex_lt hlt, triIndex_eq_iff hpos ph, fun hen => hwrap ▸ triLevel_of_sounding _ hen hlo hhi⟩

end Sys2Proof.Machine

/-! PROOFS. The statements of 44_noise.md: the LFSR's step (R334, R335), its periods (R338), and the noise channel's frame
and clock (R330 to R333, R336, R337). -/

namespace Sys2Proof.Machine

/-! ## The bits the LFSR shifts out -/

/-- Bit 0 of the LFSR after `n` steps. -/
def lfsrOut (mode : Int) (r : BitVec 16) (n : Nat) : Bool := ((fun x => lfsrStep x mode)^[n] r).getLsbD 0

theorem lfsrStep_iterate_bit15 (mode : Int) {r : BitVec 16} (h15 : r.getLsbD 15 = false) (n : Nat) :
    ((fun x => lfsrStep x mode)^[n] r).getLsbD 15 = false := by
  cases n with
  | zero => exact h15
  | succ n =>
    rw [Function.iterate_succ_apply']
    exact lfsrStep_bit15 _ mode

theorem lfsrOut_succ (mode : Int) (r : BitVec 16) (n : Nat) :
    lfsrOut mode r (n + 1) = lfsrOut mode (lfsrStep r mode) n := rfl

theorem lfsrOut_iterate (mode : Int) (r : BitVec 16) (k n : Nat) :
    lfsrOut mode ((fun x => lfsrStep x mode)^[k] r) n = lfsrOut mode r (n + k) :=
  congrArg (BitVec.getLsbD · 0) (Function.iterate_add_apply _ n k r).symm

/-- Bits 14:0 leave in order, lowest first. -/
theorem lfsrOut_of_lt (mode : Int) (r : BitVec 16) {i : Nat} (hi : i < 15) : lfsrOut mode r i = r.getLsbD i := by
  induction i generalizing r with
  | zero => rfl
  | succ i ih => rw [lfsrOut_succ, ih _ (by omega), lfsrStep_getLsbD_of_lt r mode (by omega)]

/-- A 15-bit state is known by the next 15 bits it shifts out. -/
theorem eq_of_lfsrOut_eq {mode : Int} {r q : BitVec 16} (hr : r.getLsbD 15 = false) (hq : q.getLsbD 15 = false)
    (h : ∀ i, lfsrOut mode r i = lfsrOut mode q i) : r = q := by
  refine BitVec.eq_of_getLsbD_eq fun i hi => ?_
  rcases Nat.lt_succ_iff_lt_or_eq.1 hi with hlt | rfl
  · rw [← lfsrOut_of_lt mode r hlt, ← lfsrOut_of_lt mode q hlt, h]
  · rw [hr, hq]

/-- The feedback of R334 as a recurrence of the bits shifted out. -/
theorem lfsrOut_add_15 (mode : Int) {r : BitVec 16} (h15 : r.getLsbD 15 = false) (n : Nat) :
    lfsrOut mode r (n + 15) = (lfsrOut mode r n ^^ lfsrOut mode r (n + if mode = 1 then 6 else 1)) := by
  have htap : (if mode = 1 then 6 else 1) < 15 := by split <;> decide
  rw [Nat.add_comm n 15, Nat.add_comm n, ← lfsrOut_iterate, ← lfsrOut_iterate, lfsrOut_succ, lfsrOut_of_lt _ _ (by decide),
    lfsrStep_getLsbD_14 mode (lfsrStep_iterate_bit15 mode h15 n), lfsrOut_of_lt _ _ htap, lfsrOut]

/-- R335: the recurrence gives back the bit a step shifted out. -/
theorem lfsrStep_inj {mode : Int} {r q : BitVec 16} (hr : r.getLsbD 15 = false) (hq : q.getLsbD 15 = false)
    (h : lfsrStep r mode = lfsrStep q mode) : r = q := by
  have hlater (n : Nat) : lfsrOut mode r (n + 1) = lfsrOut mode q (n + 1) := by rw [lfsrOut_succ, h, lfsrOut_succ]
  refine eq_of_lfsrOut_eq (mode := mode) hr hq fun i => ?_
  cases i with
  | zero =>
    have hrecR := lfsrOut_add_15 mode hr 0
    have hrecQ := lfsrOut_add_15 mode hq 0
    have htap : lfsrOut mode r (0 + if mode = 1 then 6 else 1) = lfsrOut mode q (0 + if mode = 1 then 6 else 1) := by
      split <;> exact hlater _
    rw [hlater 14, hrecQ, htap] at hrecR
    exact (Bool.xor_left_inj.1 hrecR).symm
  | succ n => exact hlater n

/-- Settles O48, from the step's bits. -/
theorem lfsrNeverZero : Obligations.LfsrNeverZero := fun mode r _ hr hq =>
  ⟨fun _ => lfsrStep_getLsbD_of_lt r mode, lfsrStep_getLsbD_14 mode hr, lfsrStep_bit15 r mode,
    fun h0 => lfsrStep_ne_zero mode h0 hr, lfsrStep_inj hr hq⟩

/-! ## The LFSR's periods (R338) -/

/-- Squaring x^p = 1 + x^q over the two-element field. -/
theorem recurrence_double {a : Nat → Bool} {p q : Nat} (h : ∀ n, a (n + p) = (a n ^^ a (n + q))) (n : Nat) :
    a (n + 2 * p) = (a n ^^ a (n + 2 * q)) := by
  have hswap : n + p + q = n + q + p := by omega
  rw [Nat.two_mul, Nat.two_mul, ← Nat.add_assoc, ← Nat.add_assoc, h (n + p), h n, hswap, h (n + q)]
  simp

theorem recurrence_two_pow {a : Nat → Bool} {p q : Nat} (h : ∀ n, a (n + p) = (a n ^^ a (n + q))) (j n : Nat) :
    a (n + 2 ^ j * p) = (a n ^^ a (n + 2 ^ j * q)) := by
  induction j generalizing n with
  | zero => simpa using h n
  | succ j ih => simpa only [Nat.pow_succ', Nat.mul_assoc] using recurrence_double ih n

/-- x^4 + x + 1 divides x^15 + 1. -/
theorem recurrence_4_1_period {b : Nat → Bool} (h : ∀ j, b (j + 4) = (b j ^^ b (j + 1))) : b 15 = b 0 := by
  have hsq (j : Nat) : b (j + 8) = (b j ^^ b (j + 2)) := recurrence_double h j
  calc b 15 = (b 7 ^^ b 9) := hsq 7
    _ = ((b 3 ^^ b 4) ^^ (b 1 ^^ b 3)) := congrArg₂ xor (h 3) (hsq 1)
    _ = b 0 := by rw [h 0]; simp [Bool.xor_comm, Bool.xor_left_comm]

/-- The long recurrence x^15 = 1 + x, looked at 2^j - 1 steps on, is again a recurrence in `j`, of period 15. -/
theorem recurrence_15_1_period {a : Nat → Bool} (h : ∀ n, a (n + 15) = (a n ^^ a (n + 1))) (n : Nat) :
    a (n + 32767) = a n := by
  refine recurrence_4_1_period (b := fun j => a (n + (2 ^ j - 1))) fun j => ?_
  have hpos : 0 < 2 ^ j := Nat.two_pow_pos j
  have hpow : 2 ^ (j + 4) = 2 ^ j * 16 := Nat.pow_add 2 j 4
  have hfar : n + (2 ^ (j + 4) - 1) = n + (2 ^ j - 1) + 2 ^ j * 15 := by omega
  have hnear : n + (2 ^ (j + 1) - 1) = n + (2 ^ j - 1) + 2 ^ j * 1 := by omega
  rw [hfar, hnear]
  exact recurrence_two_pow h j _

/-- The short recurrence x^15 = 1 + x^6, doubled once and twice, brings 93 down to 0. -/
theorem recurrence_15_6_period {a : Nat → Bool} (h : ∀ n, a (n + 15) = (a n ^^ a (n + 6))) (n : Nat) :
    a (n + 93) = a n := by
  have h2 (m : Nat) : a (m + 30) = (a m ^^ a (m + 12)) := recurrence_two_pow h 1 m
  have h4 (m : Nat) : a (m + 60) = (a m ^^ a (m + 24)) := recurrence_two_pow h 2 m
  have h18 : a (n + 18) = (a (n + 3) ^^ a (n + 9)) := h (n + 3)
  have h21 : a (n + 21) = (a (n + 6) ^^ a (n + 12)) := h (n + 6)
  calc a (n + 93) = (a (n + 33) ^^ a (n + 57)) := h4 (n + 33)
    _ = ((a (n + 3) ^^ a (n + 15)) ^^ (a (n + 27) ^^ a (n + 39))) := congrArg₂ xor (h2 (n + 3)) (h2 (n + 27))
    _ = ((a (n + 3) ^^ a (n + 15)) ^^ ((a (n + 12) ^^ a (n + 18)) ^^ (a (n + 9) ^^ a (n + 21)))) :=
      congrArg (xor _) (congrArg₂ xor (h (n + 12)) (h2 (n + 9)))
    _ = a n := by rw [h n, h18, h21]; simp [Bool.xor_comm, Bool.xor_left_comm]

theorem lfsr_isPeriodicPt {mode : Int} {r : BitVec 16} {k : Nat} (h15 : r.getLsbD 15 = false)
    (h : ∀ n, lfsrOut mode r (n + k) = lfsrOut mode r n) : Function.IsPeriodicPt (fun x => lfsrStep x mode) k r :=
  eq_of_lfsrOut_eq (lfsrStep_iterate_bit15 mode h15 k) h15 fun n => (lfsrOut_iterate mode r k n).trans (h n)

theorem lfsr_long_isPeriodicPt {r : BitVec 16} (h15 : r.getLsbD 15 = false) :
    Function.IsPeriodicPt (fun x => lfsrStep x 0) 32767 r :=
  lfsr_isPeriodicPt h15 (recurrence_15_1_period (lfsrOut_add_15 0 h15))

theorem lfsr_short_isPeriodicPt {r : BitVec 16} (h15 : r.getLsbD 15 = false) :
    Function.IsPeriodicPt (fun x => lfsrStep x 1) 93 r :=
  lfsr_isPeriodicPt h15 (recurrence_15_6_period (lfsrOut_add_15 1 h15))

/-- A period is the least one when no quotient of it by a prime is a period. -/
theorem minimalPeriod_eq_of_primeFactors {α : Type} {f : α → α} {x : α} {n : Nat} (hn : 0 < n)
    (hper : Function.IsPeriodicPt f n x) (hdiv : ∀ q ∈ n.primeFactors, ¬ Function.IsPeriodicPt f (n / q) x) :
    Function.minimalPeriod f x = n := by
  obtain ⟨c, rfl⟩ := hper.minimalPeriod_dvd
  by_contra hne
  obtain ⟨q, hq, hqc⟩ := Nat.exists_prime_and_dvd (n := c) fun h => hne (by rw [h, Nat.mul_one])
  refine hdiv q (Nat.mem_primeFactors.2 ⟨hq, hqc.mul_left _, hn.ne'⟩) ?_
  rw [Nat.mul_div_assoc _ hqc]
  exact (Function.isPeriodicPt_minimalPeriod f x).mul_const _

/-- 32767 is 7 × 31 × 151. -/
theorem lfsr_long_minimalPeriod_one : Function.minimalPeriod (fun x => lfsrStep x 0) 1#16 = 32767 := by
  refine minimalPeriod_eq_of_primeFactors (by decide) (lfsr_long_isPeriodicPt (by decide)) ?_
  intro q hq
  have hq : q = 7 ∨ q = 31 ∨ q = 151 := by simpa [Nat.primeFactors] using hq
  rcases hq with rfl | rfl | rfl <;> decide +kernel

/-- 93 is 3 × 31. -/
theorem lfsr_short_minimalPeriod_one : Function.minimalPeriod (fun x => lfsrStep x 1) 1#16 = 93 := by
  refine minimalPeriod_eq_of_primeFactors (by decide) (lfsr_short_isPeriodicPt (by decide)) ?_
  intro q hq
  have hq : q = 3 ∨ q = 31 := by simpa [Nat.primeFactors] using hq
  rcases hq with rfl | rfl <;> decide

theorem lfsrStep_iterate_ne_zero (mode : Int) {r : BitVec 16} (h0 : r ≠ 0) (h15 : r.getLsbD 15 = false) (n : Nat) :
    (fun x => lfsrStep x mode)^[n] r ≠ 0 := by
  induction n with
  | zero => exact h0
  | succ n ih =>
    rw [Function.iterate_succ_apply']
    exact lfsrStep_ne_zero mode ih (lfsrStep_iterate_bit15 mode h15 n)

theorem lfsr_toNat_mem_Ico {r : BitVec 16} (h0 : r ≠ 0) (h15 : r.getLsbD 15 = false) : r.toNat ∈ Finset.Ico 1 32768 := by
  have hlt := r.isLt
  rw [BitVec.getLsbD, Nat.testBit_eq_decide_div_mod_eq, decide_eq_false_iff_not] at h15
  have hne : r.toNat ≠ 0 := fun h => h0 (BitVec.eq_of_toNat_eq h)
  rw [Finset.mem_Ico]
  omega

/-- In long mode the seed's orbit has as many states as there are non-zero 15-bit words, so it is all of them. -/
theorem lfsr_long_orbit {r : BitVec 16} (h0 : r ≠ 0) (h15 : r.getLsbD 15 = false) :
    ∃ n, (fun x => lfsrStep x 0)^[n] 1#16 = r := by
  have hmaps (n : Nat) : ((fun x => lfsrStep x 0)^[n] 1#16).toNat ∈ Finset.Ico 1 32768 :=
    lfsr_toNat_mem_Ico (lfsrStep_iterate_ne_zero 0 (by decide) (by decide) n) (lfsrStep_iterate_bit15 0 (by decide) n)
  have hinj : Set.InjOn (fun n => ((fun x => lfsrStep x 0)^[n] 1#16).toNat) (Finset.range 32767) := by
    rw [Finset.coe_range, ← lfsr_long_minimalPeriod_one]
    exact (BitVec.toNat_injective.injOn).comp Function.iterate_injOn_Iio_minimalPeriod (Set.mapsTo_univ _ _)
  obtain ⟨n, -, hn⟩ := Finset.surjOn_of_injOn_of_card_le _ (fun n _ => hmaps n) hinj (by simp) (lfsr_toNat_mem_Ico h0 h15)
  exact ⟨n, BitVec.eq_of_toNat_eq hn⟩

theorem lfsr_long_minimalPeriod {r : BitVec 16} (h0 : r ≠ 0) (h15 : r.getLsbD 15 = false) :
    Function.minimalPeriod (fun x => lfsrStep x 0) r = 32767 := by
  obtain ⟨n, rfl⟩ := lfsr_long_orbit h0 h15
  have hmem : 1#16 ∈ Function.periodicPts (fun x => lfsrStep x 0) :=
    ⟨32767, by decide, lfsr_long_isPeriodicPt (by decide)⟩
  exact (Function.minimalPeriod_apply_iterate hmem n).trans lfsr_long_minimalPeriod_one

/-- Settles O49: the periods that the recurrences give are the least ones. -/
theorem lfsrPeriods : Obligations.LfsrPeriods := by
  refine ⟨fun r h0 h15 => ⟨lfsr_long_isPeriodicPt h15, fun k hpos hlt => ?_⟩, fun r => lfsr_short_isPeriodicPt,
    fun k hpos hlt => ?_⟩
  · exact Function.not_isPeriodicPt_of_pos_of_lt_minimalPeriod hpos.ne' (lfsr_long_minimalPeriod h0 h15 ▸ hlt)
  · exact Function.not_isPeriodicPt_of_pos_of_lt_minimalPeriod hpos.ne' (lfsr_short_minimalPeriod_one ▸ hlt)

/-! ## The noise channel's frame and clock (R330 to R333, R336, R337) -/

theorem noiseNext_of_lt (p : NoiseParams) (envLen : Nat) {n : NoiseState} (h : n.phase + 1 < n.wlen) :
    noiseNext p envLen n = { n with phase := n.phase + 1, env := envelopeStep p.envLoop envLen n.env } := by
  simp only [noiseNext, if_neg (Nat.not_le.2 h)]

theorem noiseNext_of_le (p : NoiseParams) (envLen : Nat) {n : NoiseState} (h : n.wlen ≤ n.phase + 1) :
    noiseNext p envLen n =
      { n with phase := 0, lfsr := lfsrStep n.lfsr p.noiseMode, env := envelopeStep p.envLoop envLen n.env } := by
  simp only [noiseNext, if_pos h]

theorem noiseNext_iterate_env (p : NoiseParams) (envLen k : Nat) (n : NoiseState) :
    ((noiseNext p envLen)^[k] n).env = (envelopeStep p.envLoop envLen)^[k] n.env :=
  Function.Semiconj.iterate_right (f := NoiseState.env) (fun _ => rfl) k n

/-- From a phase below the wavelength, the LFSR steps once in every wavelength of frames. -/
theorem noiseNext_iterate_of_lt (p : NoiseParams) (envLen k : Nat) {n : NoiseState} (h : n.phase < max n.wlen 1) :
    ((noiseNext p envLen)^[k] n).lfsr =
        (fun r => lfsrStep r p.noiseMode)^[(n.phase + k) / max n.wlen 1] n.lfsr ∧
      ((noiseNext p envLen)^[k] n).phase = (n.phase + k) % max n.wlen 1 := by
  induction k generalizing n with
  | zero =>
    rw [Nat.add_zero, Nat.div_eq_of_lt h, Nat.mod_eq_of_lt h]
    exact ⟨rfl, rfl⟩
  | succ k ih =>
    rw [Function.iterate_succ_apply]
    rcases Nat.lt_or_ge (n.phase + 1) n.wlen with hcount | hevent
    · rw [noiseNext_of_lt p envLen hcount, ← Nat.add_assoc, Nat.add_right_comm]
      exact ih (by dsimp only; omega)
    · have hsum : n.phase + (k + 1) = 0 + k + max n.wlen 1 := by omega
      rw [noiseNext_of_le p envLen hevent, hsum, Nat.add_div_right _ (by omega), Nat.add_mod_right]
      exact ih (by dsimp only; omega)

/-- From a phase at or past it, the first frame steps the LFSR and restarts the phase. -/
theorem noiseNext_iterate_of_le (p : NoiseParams) (envLen k : Nat) {n : NoiseState} (h : max n.wlen 1 ≤ n.phase) :
    ((noiseNext p envLen)^[k + 1] n).lfsr = (fun r => lfsrStep r p.noiseMode)^[k / max n.wlen 1 + 1] n.lfsr ∧
      ((noiseNext p envLen)^[k + 1] n).phase = k % max n.wlen 1 := by
  have hrest := noiseNext_iterate_of_lt p envLen k (n := noiseNext p envLen n)
  rw [noiseNext_of_le p envLen (by omega)] at hrest
  rw [Function.iterate_succ_apply, noiseNext_of_le p envLen (by omega)]
  simpa using hrest

/-- Settles O50: the frame by its two cases, and the clock by induction on the frames. -/
theorem noiseClock : Obligations.NoiseClock := by
  refine ⟨fun p envLen n => ⟨rfl, rfl, rfl, fun hevent => ?_, fun hcount => ?_⟩, fun p envLen n k => ⟨?_, ?_, ?_⟩⟩
  · rw [noiseStep, noiseNext_of_le p envLen hevent]
    exact ⟨rfl, rfl⟩
  · rw [noiseStep, noiseNext_of_lt p envLen hcount]
    exact ⟨rfl, rfl⟩
  · exact noiseNext_iterate_of_lt p envLen k
  · intro hpast hk
    obtain ⟨j, rfl⟩ := Nat.exists_eq_succ_of_ne_zero (Nat.one_le_iff_ne_zero.1 hk)
    rw [Nat.add_comm 1]
    exact noiseNext_iterate_of_le p envLen j hpast
  · exact noiseNext_iterate_env p envLen k n

end Sys2Proof.Machine

/-! PROOFS. The statements of 45_mixer_dac.md: what a render depends on (R377), the dither draws (R361, R368), and the mix
step (R360 to R373). -/

namespace Sys2Proof

/-- The words of magnitude at most 1.0's lie from -1.0 to 1.0. -/
theorem F32.neg_one_le_and_le_one_of_mag_le {w : F32} (h : F32.mag w ≤ 0x3F800000) :
    F32.le 0xBF800000#32 w = true ∧ F32.le w F32.one = true := by
  have hnan : F32.isNaN w = false := F32.isNaN_of_finite (by omega)
  obtain ⟨hlo, hhi⟩ : -0x3F800000 ≤ F32.key w ∧ F32.key w ≤ 0x3F800000 := by
    unfold F32.key
    split <;> omega
  exact ⟨F32.le_iff.2 ⟨by decide, hnan, hlo⟩, F32.le_iff.2 ⟨hnan, by decide, hhi⟩⟩

namespace Machine

/-! ## What a render depends on (R377) -/

/-- The frame loop reads the rendered voice, the Parameter Set and the configuration, and nothing else of the state. -/
theorem afterFrames_congr {s s' : State} {v : VoiceId} (hc : s'.cfg = s.cfg) (hp : s'.params = s.params)
    (hv : getVoice s' v = getVoice s v) (k : Nat) :
    (afterFrames s' v k).hid = (afterFrames s v k).hid ∧ (afterFrames s' v k).feed = (afterFrames s v k).feed := by
  rw [afterFrames, afterFrames, hc, hp, hv]
  exact renderFrames_congr _ _ _ v k 0 0 rfl rfl

/-- So do VRENDER's checks; the memory is asked only to be canonical. -/
theorem State.Renders.congr {s s' : State} {v : VoiceId} {n : BitVec 16} (h : s.Renders v n) (hm : s'.mem.wf = true)
    (hc : s'.cfg = s.cfg) (hv : getVoice s' v = getVoice s v) : s'.Renders v n :=
  { cfgOk := hc ▸ h.cfgOk
    memWf := hm
    present := hc ▸ h.present
    alive := hv ▸ h.alive
    pos := h.pos
    fits := hc ▸ h.fits
    freq := hv ▸ h.freq }

/-- Settles O34: both renders complete, and each frame's word is V.yPrev of the same hidden state. -/
theorem renderDependsOnlyOnItsVoice : Obligations.RenderDependsOnlyOnItsVoice := by
  intro s s' v n h hm hc hp hv
  have hframes := afterFrames_congr hc hp hv
  refine ⟨_, _, exec_vrender_renderedState h, exec_vrender_renderedState (h.congr hm hc hv), ?_, fun k hk c => ?_⟩
  · obtain ⟨hhid, hfeed⟩ := hframes n.toNat
    rw [getVoice_renderedState_self, getVoice_renderedState_self, hv, hhid, hfeed]
  · obtain ⟨hhid, -⟩ := hframes (k + 1)
    rw [renderedState_mem, renderedState_mem, outRead_afterFrames hm v c h.count_le hk,
      outRead_afterFrames h.memWf v c h.count_le hk, hhid]

/-! ## Dither draws (R361, R368) -/

theorem afterFrames_feed (s : State) (v : VoiceId) (k : Nat) :
    (afterFrames s v k).feed =
      { queue := (getVoice s v).feed.queue.drop (2 * k), drawn := (getVoice s v).feed.drawn + 2 * k } :=
  renderFrames_feed _ _ _ v k 0 _

/-- Rewriting a slot around its own feed leaves every feed alone. -/
theorem getVoice_setVoice_feed (s : State) (v u : VoiceId) (alive : Bool) (err : ErrCode) (freq : Word)
    (hid : VoiceState) :
    (getVoice (setVoice s v ⟨alive, err, freq, hid, (getVoice s v).feed⟩) u).feed = (getVoice s u).feed := by
  rw [getVoice_setVoice]
  split
  · next hu => rw [hu]
  · rfl

/-- An operation changes a dither feed only as a render. -/
theorem Effect.feed_eq {i : Instr} {s t : State} (h : Effect i s t) (hc : s.cfg.wf = true) (hm : s.mem.wf = true)
    (hi : ∀ v n, i = .vrender v n → ¬ s.Renders v n) (u : VoiceId) : (getVoice t u).feed = (getVoice s u).feed := by
  cases h with
  | wroteFreq v => exact getVoice_setVoice_feed s v u _ _ _ _
  | created v => exact getVoice_setVoice_feed s v u _ _ _ _
  | freed v => exact getVoice_setVoice_feed s v u _ _ _ _
  | raised v => exact getVoice_setVoice_feed s v u _ _ _ _
  | rendered v n hv hpres ha h0 hn hf =>
    exact absurd ⟨hc, hm, hpres, ha, Nat.one_le_iff_ne_zero.2 h0, hn, hf⟩ (hi v n hv)
  | _ => rfl

/-- A word brought into range is of magnitude at most 1.0's: it is, or it was replaced by +0.0. -/
theorem mag_toUnitRange_le (w : F32) : F32.mag (toUnitRange w) ≤ 0x3F800000 := by
  unfold toUnitRange
  split
  · assumption
  · decide

/-- Every draw, supplied or free, is a word brought into range. -/
theorem draw_eq_toUnitRange (v : VoiceId) (f : DitherFeed) : ∃ w, (f.draw v).1 = toUnitRange w := by
  obtain ⟨_ | ⟨d, q⟩, k⟩ := f
  · exact ⟨Config.freeDither v.val k, rfl⟩
  · exact ⟨d, rfl⟩

/-- Settles O36: the frame loop draws twice a frame, no other effect of an operation touches a feed, and a draw is a
word brought into range. -/
theorem ditherDraws : Obligations.DitherDraws := by
  refine ⟨fun s v n h => ⟨_, exec_vrender_renderedState h, ?_, ?_⟩,
    fun i s t h hi hc hm u => (exec_effect h).feed_eq hc hm hi u, fun v f => ?_⟩
  · rw [getVoice_renderedState_self, afterFrames_feed]
  · rw [getVoice_renderedState_self, afterFrames_feed]
  · obtain ⟨w, hw⟩ := draw_eq_toUnitRange v f
    exact hw ▸ F32.neg_one_le_and_le_one_of_mag_le (mag_toUnitRange_le w)

/-! ## The mix step (R360 to R373) -/

/-- Settles O54: a pair's filter memory is R362 to R366 in the order the rules write them, and R367, R370 and R372 join
the two. -/
theorem mixStepFormula : Obligations.MixStepFormula := by
  intro c mv l1 l2 l3 l4 d12 d34 x pair
  have hpair (lA lB : Nat) (m d : F32) : pairFilter c lA lB m d = pair (lA + lB) d m := rfl
  simp only [mixStep, pairStep, hpair, masterMix, dcBlock, dcCoef]

end Machine

end Sys2Proof

/-! PROOFS. The statements of 60_exceptions.md: the idle block (R434), recorded command errors and VRENDER's checks (R402 to
R405), what may change a voice's status (with 10_state.md R67 and R68), and that a step always goes on (R400). -/

namespace Sys2Proof.Machine

/-! ## A step with no transaction (R434, R440) -/

theorem step_idle {s : State} (hc : s.cfg.wf = true) (hin : s.inbox = []) : step s = .next s := by
  rw [step, hin]
  exact guardConfig_of_wf hc

theorem step_reset {s : State} {rest : List Event} (hc : s.cfg.wf = true) (hin : s.inbox = .reset :: rest) :
    step s = .next { blockReset { s with inbox := rest } with reply := none } := by
  rw [step, hin]
  exact guardConfig_of_wf hc

/-- Settles O8: the configuration check lets the idle outcome through. -/
theorem idleStepChangesNothing : Obligations.IdleStepChangesNothing := fun _ hc hin => step_idle hc hin

/-! ## Recorded command errors (R402 to R404) -/

/-- A raised error goes on, and touches nothing but its voice's ERR. -/
theorem raiseError_result (code : ErrCode) (v : VoiceId) (s : State) :
    ∃ t, raiseError code v s = .next t ∧ State.SameButVoice v s t ∧ t.reply = none ∧
      getVoice t v = { getVoice s v with err := errAfterRaise code (getVoice s v).err } :=
  ⟨_, raiseError_eq code v s, sameButVoice_setVoice s v _ none s.freeSerial, rfl, getVoice_setVoice_self s v _⟩

section
variable {s : State} {v : VoiceId} (hv : v.present s.cfg = true)
include hv

theorem exec_cmdIllegal_present (w : Word) : exec (.cmdIllegal v w) s = raiseError .illegalCmd v s :=
  (exec_cmdIllegal v w s).trans (onVoice_present hv)

/-- VRENDER on a voice that is not alive, whatever its count and FREQ (R403). -/
theorem exec_vrender_dead (n : BitVec 16) (ha : (getVoice s v).alive = false) :
    exec (.vrender v n) s = raiseError .voiceDead v s := by
  rw [exec_vrender, execVrender, onVoice_present hv, if_pos ha]

variable {n : BitVec 16} (ha : (getVoice s v).alive = true)
include ha

theorem exec_vrender_badCount (hn : s.cfg.blockFrames < n.toNat) :
    exec (.vrender v n) s = raiseError .badCount v s := by
  rw [exec_vrender, execVrender, onVoice_present hv, if_neg (by simp [ha]), frameCount, if_pos hn]

/-- VRENDER(0) on an alive voice, whatever its FREQ (41_voice_commands.md R238). -/
theorem exec_vrender_zero (h0 : n.toNat = 0) : exec (.vrender v n) s = .next { s with reply := none } := by
  rw [exec_vrender, execVrender, onVoice_present hv, if_neg (by simp [ha]), frameCount, if_neg (by omega), if_pos h0]
  rfl

theorem exec_vrender_badFreq (hn : n.toNat ≤ s.cfg.blockFrames) (h0 : n.toNat ≠ 0)
    (hf : validFreq (getVoice s v).freq = false) : exec (.vrender v n) s = raiseError .badFreq v s := by
  rw [exec_vrender, execVrender, onVoice_present hv, if_neg (by simp [ha]), frameCount, if_neg (by omega), if_neg h0,
    if_pos hf]

end

/-- Settles O28: the word selects CMD.ILLEGAL, and that raises an error before any other check. -/
theorem cmdIllegalResult : Obligations.CmdIllegalResult := by
  intro s v w hlt
  have hv : v.present s.cfg = true := decide_eq_true hlt
  rw [← voiceRegAddr_eq v 0x0, exec_cmdIllegal_present hv]
  refine ⟨fun hw => ?_, raiseError_result .illegalCmd v s⟩
  rw [decode_write_cmd hv, Instr.ofCmd, hw]

/-- Settles O29: each failing check raises its own error, and VRENDER(0) passes the checks before FREQ's. -/
theorem vrenderChecks : Obligations.VrenderChecks := by
  intro s v n hlt
  have hv : v.present s.cfg = true := decide_eq_true hlt
  refine ⟨fun code hcheck => ?_, fun ha h0 => exec_vrender_zero hv ha h0⟩
  have hraise : exec (.vrender v n) s = raiseError code v s := by
    rcases hcheck with ⟨ha, rfl⟩ | ⟨ha, hn, rfl⟩ | ⟨ha, hn, h0, hf, rfl⟩
    · exact exec_vrender_dead hv n ha
    · exact exec_vrender_badCount hv ha hn
    · exact exec_vrender_badFreq hv ha hn h0 hf
  rw [hraise]
  exact raiseError_result code v s

/-! ## What may change ERR, ALIVE and FREQ (R404, R405, 10_state.md R67, R68) -/

/-- A slot rewritten with one part kept leaves that part of every slot alone. -/
theorem getVoice_setVoice_part {α : Type} (part : Voice → α) (s : State) (v : VoiceId) {x : Voice}
    (hx : part x = part (getVoice s v)) (u : VoiceId) : part (getVoice (setVoice s v x) u) = part (getVoice s u) := by
  rw [getVoice_setVoice]
  split
  · next hu => rw [hx, hu]
  · rfl

section
variable {i : Instr} {s t : State} (h : Effect i s t) (u : VoiceId)
include h

/-- An error recorded before is kept by all but VINIT of its voice. -/
theorem Effect.err_cases : (getVoice t u).err = (getVoice s u).err ∨ (getVoice s u).err = .none ∨ i = .vinit u := by
  cases h with
  | wroteFreq v d => exact .inl (getVoice_setVoice_part Voice.err s v (by rfl) u)
  | created v hi hv =>
    by_cases hu : u = v
    · exact .inr (.inr (hu ▸ hi))
    · exact .inl (congrArg Voice.err (getVoice_setVoice_of_ne s v u _ hu))
  | freed v => exact .inl (getVoice_setVoice_part Voice.err s v (by rfl) u)
  | raised v code hi hv hcode =>
    by_cases hnone : (getVoice s v).err = .none
    · by_cases hu : u = v
      · exact .inr (.inl (hu ▸ hnone))
      · exact .inl (congrArg Voice.err (getVoice_setVoice_of_ne s v u _ hu))
    · exact .inl (getVoice_setVoice_part Voice.err s v (if_neg hnone) u)
  | rendered v n => exact .inl (getVoice_setVoice_part Voice.err s v (by rfl) u)
  | _ => exact .inl rfl

/-- VINIT and VFREE of a voice set its ALIVE, and nothing else does. -/
theorem Effect.alive_cases : (getVoice t u).alive = (getVoice s u).alive ∨
    (i = .vinit u ∧ (getVoice t u).alive = true) ∨ (i = .vfree u ∧ (getVoice t u).alive = false) := by
  cases h with
  | wroteFreq v d => exact .inl (getVoice_setVoice_part Voice.alive s v (by rfl) u)
  | created v hi hv =>
    by_cases hu : u = v
    · subst hu
      exact .inr (.inl ⟨hi, congrArg Voice.alive (getVoice_setVoice_self s u _)⟩)
    · exact .inl (congrArg Voice.alive (getVoice_setVoice_of_ne s v u _ hu))
  | freed v hi hv ha =>
    by_cases hu : u = v
    · subst hu
      exact .inr (.inr ⟨hi, congrArg Voice.alive (getVoice_setVoice_self s u _)⟩)
    · exact .inl (congrArg Voice.alive (getVoice_setVoice_of_ne s v u _ hu))
  | raised v code => exact .inl (getVoice_setVoice_part Voice.alive s v (by rfl) u)
  | rendered v n => exact .inl (getVoice_setVoice_part Voice.alive s v (by rfl) u)
  | _ => exact .inl rfl

/-- FREQ of a voice is kept or is the word just written to it. -/
theorem Effect.freq_cases : (getVoice t u).freq = (getVoice s u).freq ∨ i = .wrFreq u (getVoice t u).freq := by
  cases h with
  | wroteFreq v d hi hv =>
    by_cases hu : u = v
    · subst hu
      have hword : (getVoice (setVoice s u { getVoice s u with freq := d }) u).freq = d := by rw [getVoice_setVoice_self]
      exact .inr (hi.trans (congrArg (Instr.wrFreq u) hword.symm))
    · exact .inl (congrArg Voice.freq (getVoice_setVoice_of_ne s v u _ hu))
  | created v => exact .inl (getVoice_setVoice_part Voice.freq s v (by rfl) u)
  | freed v => exact .inl (getVoice_setVoice_part Voice.freq s v (by rfl) u)
  | raised v code => exact .inl (getVoice_setVoice_part Voice.freq s v (by rfl) u)
  | rendered v n => exact .inl (getVoice_setVoice_part Voice.freq s v (by rfl) u)
  | _ => exact .inl rfl

end

/-- A transaction that selects an operation is the one that encodes it. -/
theorem eq_encode_of_decode {c : Config} {x : Txn} {i : Instr} (hc : c.wf = true) (hi : decode c x = i) :
    x = encode i := hi ▸ (encode_decode hc x).symm

/-- Settles O57: what an operation may do to each of the three, and the transaction of the operation that did it. -/
theorem voiceStatusLifecycle : Obligations.VoiceStatusLifecycle := by
  intro s t v h hreset
  obtain ⟨hc, ⟨-, rfl⟩ | ⟨x, rest, hin, hx⟩ | ⟨rest, hin, -⟩⟩ := step_cases h
  · exact ⟨fun hne => absurd rfl hne, fun hs ht => absurd (hs.symm.trans ht) (by decide),
      fun hs ht => absurd (hs.symm.trans ht) (by decide), fun hne => absurd rfl hne⟩
  · have heff := exec_effect hx
    have hpending {i : Instr} (hi : decode s.cfg x = i) : ∃ rest, s.inbox = .txn (encode i) :: rest :=
      ⟨rest, eq_encode_of_decode hc hi ▸ hin⟩
    refine ⟨fun hne => ((heff.err_cases v).resolve_left hne).imp_right hpending, fun hs ht => ?_, fun hs ht => ?_,
      fun hne => hpending ((heff.freq_cases v).resolve_left hne)⟩
    · rcases heff.alive_cases v with hkept | ⟨hi, -⟩ | ⟨-, hdead⟩
      · simp [hs, ht] at hkept
      · exact hpending hi
      · simp [ht] at hdead
    · rcases heff.alive_cases v with hkept | ⟨-, halive⟩ | ⟨hi, -⟩
      · simp [hs, ht] at hkept
      · simp [ht] at halive
      · exact hpending hi
  · exact absurd hin (hreset rest)

/-! ## The block never traps (R400) -/

/-- No operation takes an event from the inbox or puts one there. -/
theorem Effect.inbox_eq {i : Instr} {s t : State} (h : Effect i s t) : t.inbox = s.inbox := by
  cases h <;> rfl

/-- VRENDER of a present voice goes on, whether a check fails or it renders. -/
theorem exec_vrender_next {s : State} {v : VoiceId} (n : BitVec 16) (hv : v.present s.cfg = true) :
    ∃ t, exec (.vrender v n) s = .next t := by
  rw [exec_vrender, execVrender, onVoice_present hv]
  dsimp only
  split_ifs <;> exact ⟨_, rfl⟩

/-- A well-formed operation goes on, or reads an output word no render has written (20_memory.md R108, log entry 11). -/
theorem exec_next_or_unwritten {i : Instr} {s : State} (hwf : i.wf s.cfg = true) :
    (∃ t, exec i s = .next t) ∨
      ∃ v j c, i = .rdOut v j c ∧ outRead v j.toNat c s.mem = none ∧ exec i s = .fault (.unwrittenOutput v j c) := by
  induction i using Instr.byKind with
  | hw p d => exact .inl ⟨_, exec_wrParam p d s⟩
  | hr p => exact .inl ⟨_, exec_rdParam p s⟩
  | hVinit v => exact .inl ⟨_, exec_vinit_present hwf⟩
  | hVrender v n => exact .inl (exec_vrender_next n hwf)
  | hVfree v =>
    cases ha : (getVoice s v).alive with
    | true => exact .inl ⟨_, exec_vfree_alive hwf ha⟩
    | false => exact .inl ⟨_, exec_vfree_dead hwf ha⟩
  | hCmdIllegal v w =>
    obtain ⟨hv, -⟩ := (Bool.and_eq_true _ _).mp hwf
    exact .inl ⟨_, exec_cmdIllegal_present hv w⟩
  | hRdCmd v => exact .inl ⟨_, exec_rdCmd_present hwf⟩
  | hRdStatus v => exact .inl ⟨_, exec_rdStatus_present hwf⟩
  | hWrStatus v d => exact .inl ⟨_, exec_wrStatus_present hwf d⟩
  | hWrFreq v d => exact .inl ⟨_, exec_wrFreq_present hwf d⟩
  | hRdFreq v => exact .inl ⟨_, exec_rdFreq_present hwf⟩
  | hRdOut v j c =>
    obtain ⟨hv, hj⟩ := (Bool.and_eq_true _ _).mp hwf
    cases hword : outRead v j.toNat c s.mem with
    | some w => exact .inl ⟨_, exec_rdOut_of_some hv (of_decide_eq_true hj) hword⟩
    | none => exact .inr ⟨v, j, c, rfl, hword, exec_rdOut_of_none hv (of_decide_eq_true hj) hword⟩
  | hBusErr x => exact .inl ⟨_, busError_eq x.dir s⟩
  | _ => exact .inl ⟨_, rfl⟩

/-- Settles O59, event by event: the decoder gives a well-formed operation, and no operation touches the inbox. -/
theorem neverTraps : Obligations.NeverTraps := by
  intro s hc
  cases hin : s.inbox with
  | nil => exact .inl ⟨s, step_idle hc hin, hin⟩
  | cons event rest =>
    cases event with
    | reset => exact .inl ⟨_, step_reset hc hin, rfl⟩
    | txn x =>
      rw [step_txn hc hin]
      rcases exec_next_or_unwritten (s := { s with inbox := rest }) (decode_wf hc x) with
        ⟨t, ht⟩ | ⟨v, j, c, hi, hnone, hf⟩
      · exact .inl ⟨t, ht, (exec_effect ht).inbox_eq⟩
      · exact .inr ⟨v, j, c, rest, by rw [eq_encode_of_decode hc hi], hnone, hf⟩

end Sys2Proof.Machine

/-! PROOFS. The statements of 70_reset_and_hazards.md: block reset (R440, R441), the boot sequence (R442), and a change of a
detune register between renders (R452). -/

namespace Sys2Proof.Machine

/-! ## Block reset (R440) -/

theorem Params.get_reset (p : Param) : Params.reset.get p = if p = .masterVol then 16384 else 0 := by
  cases p <;> rfl

/-- Settles O10: the step is `blockReset`, and the three constants are read from the state it leaves. -/
theorem blockResetValues : Obligations.BlockResetValues := by
  intro s rest hc hin
  refine ⟨_, step_reset hc hin, Params.get_reset, rfl, fun v => ?_, fun _ => rfl, fun _ => ⟨_, rfl, rfl⟩,
    fun v hv => ⟨_, exec_rdCmd_present hv, rfl⟩, ⟨_, rfl, rfl⟩, rfl, rfl, rfl⟩
  rw [getVoice_with_reply, getVoice_blockReset]
  exact ⟨rfl, rfl, rfl, rfl⟩

/-! ## The boot sequence (R442) -/

/-- An alive voice with no error recorded reads as STATUS 1 (40_host_bus.md R190). -/
theorem statusWord_of_alive {x : Voice} (ha : x.alive = true) (he : x.err = .none) : statusWord x = 0x00000001#32 := by
  rw [statusWord, ha, he]
  rfl

/-- Settles O60: FREQ's write and VINIT leave a voice that passes VRENDER's checks, the render keeps ALIVE and ERR, and it
writes both words of each of its frames. -/
theorem bootSequence : Obligations.BootSequence := by
  intro s v f n hc hm hlt hf h1 hn
  obtain ⟨-, -, -, t1, hfreq, hkept1, -, hslot1⟩ := voiceRegisterWrites s v f hlt
  obtain ⟨-, t2, hinit, hkept2, -, hslot2⟩ := vinitResult t1 v (hkept1.cfg ▸ hlt)
  have hcfg2 : t2.cfg = s.cfg := hkept2.cfg.trans hkept1.cfg
  have hrenders : t2.Renders v n :=
    { cfgOk := hcfg2 ▸ hc
      memWf := hkept2.mem.trans hkept1.mem ▸ hm
      present := hcfg2 ▸ decide_eq_true hlt
      alive := by rw [hslot2]
      pos := h1
      fits := hcfg2 ▸ hn
      freq := by rwa [hslot2, hslot1] }
  obtain ⟨t3, hrender, hcfg3, -, -, -, -, -, halive, herr, -, -, hframes, -⟩ := vrenderCompletes t2 v n hrenders
  have hv3 : v.present t3.cfg = true := hcfg3 ▸ hrenders.present
  have hnoErr : (getVoice t3 v).err = .none := herr.trans (by rw [hslot2])
  refine ⟨t1, t2, t3, _, hfreq, hinit, hrender, exec_rdStatus_present hv3,
    congrArg some (statusWord_of_alive halive hnoErr), fun i hi c => ?_⟩
  have hframe : i.toNat < t3.cfg.blockFrames := hcfg3 ▸ hi.trans_le hrenders.fits
  obtain ⟨y, hleft, hright⟩ := hframes i.toNat hi
  cases c with
  | left => exact ⟨_, exec_rdOut_of_some hv3 hframe hleft⟩
  | right => exact ⟨_, exec_rdOut_of_some hv3 hframe hright⟩

/-! ## A detune change while the pitch is held (R452) -/

/-- The Parameter Set with other values in its three detune registers. -/
def Params.withDetunes (p : Params) (d1 d2 d3 : Int) : Params :=
  { p with ch1 := { p.ch1 with detune := d1 }, ch2 := { p.ch2 with detune := d2 }, ch3 := { p.ch3 with detune := d3 } }

section
variable (c : Config) (p : Params) (d1 d2 d3 : Int)

@[simp] theorem derive_withDetunes : derive c (p.withDetunes d1 d2 d3) = derive c p := rfl

/-- No rule of a frame reads a detune register (41_voice_commands.md R233). -/
theorem frame_withDetunes (d : Derived) (x y : F32) (h : VoiceState) :
    frame c (p.withDetunes d1 d2 d3) d x y h = frame c p d x y h := rfl

/-- Pitch detection leaves a voice whose pitch is held as it is, whatever the Parameter Set (R227). -/
theorem pitchUpdate_of_held {f : Word} {h : VoiceState} (hf : f = h.cachedFreq) : pitchUpdate c p f h = h :=
  if_neg (not_not_intro hf)

/-- While the pitch is held a render's steps before its first frame do not read one either (R227, R229). -/
theorem renderStart_withDetunes {f : Word} {h : VoiceState} (hf : f = h.cachedFreq) :
    renderStart c (p.withDetunes d1 d2 d3) f h = renderStart c p f h := by
  rw [renderStart, renderStart, pitchUpdate_of_held c _ hf, pitchUpdate_of_held c _ hf]
  rfl

theorem render_withDetunes (v : VoiceId) (n : Nat) {x : Voice} (m : Mem) (hf : x.freq = x.hid.cachedFreq) :
    render c (p.withDetunes d1 d2 d3) v n x m = render c p v n x m := by
  rw [render, render, derive_withDetunes, renderStart_withDetunes c p d1 d2 d3 hf]
  exact renderFrames_params_congr c p _ _ v (frame_withDetunes c p d1 d2 d3 _) n 0 _

/-- A render with a held pitch and other detune values leaves what it leaves with the present ones, but for those values. -/
theorem exec_vrender_withDetunes {s : State} {v : VoiceId} {n : BitVec 16} (h : s.Renders v n)
    (hf : (getVoice s v).freq = (getVoice s v).hid.cachedFreq) :
    exec (.vrender v n) { s with params := s.params.withDetunes d1 d2 d3 } =
      .next { renderedState s v n.toNat with params := s.params.withDetunes d1 d2 d3 } := by
  have hrenders : State.Renders { s with params := s.params.withDetunes d1 d2 d3 } v n := { h with }
  rw [exec_vrender_of_renders hrenders, getVoice_with_params, render_withDetunes _ _ _ _ _ _ _ _ hf]
  rfl

end

/-- Settles O38: both renders complete, and the states they leave differ in the detune values alone. -/
theorem detuneNotHeardWhilePitchHeld : Obligations.DetuneNotHeardWhilePitchHeld :=
  fun _ _ _ d1 d2 d3 h hf =>
    ⟨_, _, exec_vrender_renderedState h, exec_vrender_withDetunes d1 d2 d3 h hf, rfl, rfl⟩

end Sys2Proof.Machine
